-- ==== Sys2Proof/Config.lean ====
section
/-! DEFINITION. The two parameters of the block that a model takes as arguments (00_scope.md R5, 92_eei_decisions.md D7 and D8).
They are constants fixed when the block is built, not registers (10_state.md R14). -/

namespace Sys2Proof

/-- What is fixed when the block is built. The values of the block itself, R5's, are `blockConfig` (Decode.lean). -/
structure Config where
  /-- `U_RENDER_SIGNED`: whether a U-immediate is printed as a signed 32-bit number (R44, R119, D7). -/
  uRenderSigned : Bool
  /-- `R_PAIR_EXACT`: whether opcode 0x33 with funct3 0 or 5 and funct7 other than 0x00 and 0x20 is unrecognised
  (R49, D8). -/
  rPairExact : Bool
deriving DecidableEq, Repr

end Sys2Proof
end

