-- ==== Sys2Proof/Word.lean ====
section
/-! DEFINITION. The types of the values on the block's ports (10_state.md R18): words, bytes, register indices, the Field Set,
the enumerations `kind` and `tmpl`, and text. -/

namespace Sys2Proof

/-- The input word, 32 bits, unsigned (R5 `WORD_W`, R19). -/
abbrev Word := BitVec 32

/-- One byte of an instruction image (R26), and one character code of the text port (R124). -/
abbrev Byte := BitVec 8

/-- A register index, `rd`, `rs1` or `rs2`, 5 bits (R5 `REG_IDX_W`, R11, R37). -/
abbrev RegIdx := BitVec 5

/-- A rendered text, or a piece of one: a finite sequence of characters (R111). R124 asks a model to give the text output this
type and to treat the packing of the port as a separate encoding of it. -/
abbrev Text := List Char

/-- The Field Set (R9, R36): the six unsigned slices of a word, each of its exact width (R37). -/
structure FieldSet where
  opcode : BitVec 7
  rd : RegIdx
  funct3 : BitVec 3
  rs1 : RegIdx
  rs2 : RegIdx
  funct7 : BitVec 7
deriving DecidableEq, Repr

/-- The enumeration on the output `kind` (R21): unknown, then the 37 recognised instructions in the order of R58. The numeric
codes are a representation of it (D2), `Kind.code`. -/
inductive Kind where
  | unknown
  | add | sub | sll | slt | sltu | xor | srl | sra | or | and
  | lb | lh | lw | lbu | lhu
  | addi | slti | sltiu | xori | ori | andi | slli | srli | srai
  | beq | bne | blt | bge | bltu | bgeu
  | sb | sh | sw
  | lui | auipc | jal | jalr
deriving DecidableEq, Repr

/-- The enumeration on the output `tmpl` (R22): the operand templates of R117, under the names the table gives them. -/
inductive Template where
  | NONE | R | IMEM | IARITH | B | S | U | J
deriving DecidableEq, Repr

end Sys2Proof
end

