-- ==== Sys2Proof/Syntax.lean ====
section
/-! DEFINITION. The instructions the block tells apart: one constructor per row of spec/opcode_table.json, in its order
(30_encoding.md R58), the last for the default row. -/

namespace Sys2Proof

/-- A decoded instruction: a recognised mnemonic with the operands its template prints (R9 "Decoded Instruction", R40, D20), or
the unknown result, which has no operands and no trace of the word (R106, D20).

Registers are indices (R11). An immediate is the value gathered from the word BEFORE extension to the 32-bit container, at the width
R5 gives its format: I and S 12, B 13, J 21, U 32. `srli` and `srai` carry the 5-bit shift amount `word[24:20]`, which is what they
print (R47, R88, R89); `slli` carries the whole unmasked 12-bit immediate (R47, R87). The operands stand in the order in which the
template prints them (R122). Bits the dispatch ignores (R61) are no operands and are not held. -/
inductive Instr where
  -- opcode 0x33 (R63 to R73)
  | add (rd rs1 rs2 : RegIdx)
  | sub (rd rs1 rs2 : RegIdx)
  | sll (rd rs1 rs2 : RegIdx)
  | slt (rd rs1 rs2 : RegIdx)
  | sltu (rd rs1 rs2 : RegIdx)
  | xor (rd rs1 rs2 : RegIdx)
  | srl (rd rs1 rs2 : RegIdx)
  | sra (rd rs1 rs2 : RegIdx)
  | or (rd rs1 rs2 : RegIdx)
  | and (rd rs1 rs2 : RegIdx)
  -- opcode 0x03 (R74 to R79)
  | lb (rd : RegIdx) (imm : BitVec 12) (rs1 : RegIdx)
  | lh (rd : RegIdx) (imm : BitVec 12) (rs1 : RegIdx)
  | lw (rd : RegIdx) (imm : BitVec 12) (rs1 : RegIdx)
  | lbu (rd : RegIdx) (imm : BitVec 12) (rs1 : RegIdx)
  | lhu (rd : RegIdx) (imm : BitVec 12) (rs1 : RegIdx)
  -- opcode 0x13 (R80 to R89)
  | addi (rd rs1 : RegIdx) (imm : BitVec 12)
  | slti (rd rs1 : RegIdx) (imm : BitVec 12)
  | sltiu (rd rs1 : RegIdx) (imm : BitVec 12)
  | xori (rd rs1 : RegIdx) (imm : BitVec 12)
  | ori (rd rs1 : RegIdx) (imm : BitVec 12)
  | andi (rd rs1 : RegIdx) (imm : BitVec 12)
  | slli (rd rs1 : RegIdx) (imm : BitVec 12)
  | srli (rd rs1 : RegIdx) (shamt : BitVec 5)
  | srai (rd rs1 : RegIdx) (shamt : BitVec 5)
  -- opcode 0x63 (R90 to R96)
  | beq (rs1 rs2 : RegIdx) (imm : BitVec 13)
  | bne (rs1 rs2 : RegIdx) (imm : BitVec 13)
  | blt (rs1 rs2 : RegIdx) (imm : BitVec 13)
  | bge (rs1 rs2 : RegIdx) (imm : BitVec 13)
  | bltu (rs1 rs2 : RegIdx) (imm : BitVec 13)
  | bgeu (rs1 rs2 : RegIdx) (imm : BitVec 13)
  -- opcode 0x23 (R97 to R100)
  | sb (rs2 : RegIdx) (imm : BitVec 12) (rs1 : RegIdx)
  | sh (rs2 : RegIdx) (imm : BitVec 12) (rs1 : RegIdx)
  | sw (rs2 : RegIdx) (imm : BitVec 12) (rs1 : RegIdx)
  -- opcodes 0x37, 0x17, 0x6F, 0x67 (R101 to R105)
  | lui (rd : RegIdx) (imm : BitVec 32)
  | auipc (rd : RegIdx) (imm : BitVec 32)
  | jal (rd : RegIdx) (imm : BitVec 21)
  | jalr (rd : RegIdx) (imm : BitVec 12) (rs1 : RegIdx)
  -- the default row (R106)
  | unknown
deriving DecidableEq, Repr

end Sys2Proof
end

