-- ==== Sys2Proof/Decode.lean ====
section
/-! DEFINITION. The three decoding sub-blocks (30_encoding.md): the field extractor (R36 to R38), the immediate reconstructor
(R41 to R47) and the opcode/funct dispatch multiplexer (R48 to R58); the assembly of a word from bytes (20_memory.md R26, R27);
and, after the decoder, the encoder, written from the layouts of R40 and the table of R58. -/

namespace Sys2Proof

/-- The parameters of the block itself, at the values of R5: `U_RENDER_SIGNED` true (D7), `R_PAIR_EXACT` true (D8). -/
def blockConfig : Config := { uRenderSigned := true, rPairExact := true }

/-! ## Field extractor (R36) -/

/-- `word[6:0]` (R36). -/
def opcodeOf (w : Word) : BitVec 7 := w.extractLsb' 0 7

/-- `word[11:7]` (R36). -/
def rdOf (w : Word) : RegIdx := w.extractLsb' 7 5

/-- `word[14:12]` (R36). -/
def funct3Of (w : Word) : BitVec 3 := w.extractLsb' 12 3

/-- `word[19:15]` (R36). -/
def rs1Of (w : Word) : RegIdx := w.extractLsb' 15 5

/-- `word[24:20]` (R36); under opcode 0x13 the shift amount (R40, R47). -/
def rs2Of (w : Word) : RegIdx := w.extractLsb' 20 5

/-- `word[31:25]` (R36); under opcode 0x13 the upper part of the immediate, the "funct7 position" (R40, R47). -/
def funct7Of (w : Word) : BitVec 7 := w.extractLsb' 25 7

/-- `extractFields(word)`: the same six slices of every word, recognised or not (R36, R20). -/
def extractFields (w : Word) : FieldSet where
  opcode := opcodeOf w
  rd := rdOf w
  funct3 := funct3Of w
  rs1 := rs1Of w
  rs2 := rs2Of w
  funct7 := funct7Of w

/-- `signExtend(value, bitWidth)` (R38): mask to `bitWidth` bits, then `(v XOR signBit) - signBit` on integers. Its domain is
`1 <= bitWidth <= 32`; outside it there is no value (D18, ID1). -/
def signExtend (value bitWidth : Nat) : Option Int :=
  if 1 ≤ bitWidth ∧ bitWidth ≤ 32 then
    let signBit := 1 <<< (bitWidth - 1)
    let v := value &&& ((1 <<< bitWidth) - 1)
    some (((v ^^^ signBit : Nat) : Int) - (signBit : Int))
  else none

/-! ## Immediate reconstructor (R41 to R45): the gathered bits, before extension -/

/-- The 12 bits of the I-immediate, `word[31:20]` (R41). -/
def immIField (w : Word) : BitVec 12 := w.extractLsb' 20 12

/-- The 12 bits of the S-immediate, `word[31:25] ++ word[11:7]` (R42). -/
def immSField (w : Word) : BitVec 12 := w.extractLsb' 25 7 ++ w.extractLsb' 7 5

/-- The 13 bits of the B-immediate, `word[31] ++ word[7] ++ word[30:25] ++ word[11:8] ++ 0` (R43). -/
def immBField (w : Word) : BitVec 13 :=
  w.extractLsb' 31 1 ++ w.extractLsb' 7 1 ++ w.extractLsb' 25 6 ++ w.extractLsb' 8 4 ++ 0#1

/-- The 32 bits of the U-immediate, `immU_bits = word[31:12] ++ zeros(12)` (R44). -/
def immUField (w : Word) : BitVec 32 := w.extractLsb' 12 20 ++ 0#12

/-- The 21 bits of the J-immediate, `word[31] ++ word[19:12] ++ word[20] ++ word[30:21] ++ 0` (R45). -/
def immJField (w : Word) : BitVec 21 :=
  w.extractLsb' 31 1 ++ w.extractLsb' 12 8 ++ w.extractLsb' 20 1 ++ w.extractLsb' 21 10 ++ 0#1

/-! ## Immediate values: integers (R8), sign-extended -/

/-- `sext_N` (R7): the two's complement reading of an `N`-bit value. -/
def sext {n : Nat} (v : BitVec n) : Int := v.toInt

/-- `immI(word)`, -2048 to 2047 (R41). -/
def immI (w : Word) : Int := sext (immIField w)

/-- `immS(word)`, -2048 to 2047 (R42). -/
def immS (w : Word) : Int := sext (immSField w)

/-- `immB(word)`, -4096 to 4094 (R43). -/
def immB (w : Word) : Int := sext (immBField w)

/-- The integer a U-immediate stands for: its 32 bits read as signed when `U_RENDER_SIGNED`, as unsigned when not (R44, R119, D7). -/
def upperValue (cfg : Config) (imm : BitVec 32) : Int :=
  if cfg.uRenderSigned then sext imm else (imm.toNat : Int)

/-- `immU(word)` (R44). -/
def immU (cfg : Config) (w : Word) : Int := upperValue cfg (immUField w)

/-- `immJ(word)`, -1048576 to 1048574 (R45). -/
def immJ (w : Word) : Int := sext (immJField w)

/-- The integer of a 5-bit shift amount, 0 to 31 (R47, R88, R89). -/
def shamtValue (shamt : BitVec 5) : Int := (shamt.toNat : Int)

/-! ## The same layouts as data: the gather lists of R41 to R45 -/

/-- One pair `(word[hi:lo], dst)` of a gather list: the slice is copied, in the same bit order, to the immediate bits from `dst`
up (section 4 of 30_encoding.md, R6). -/
structure GatherPiece where
  hi : Nat
  lo : Nat
  dst : Nat
deriving DecidableEq, Repr

/-- R41's list. -/
def gatherI : List GatherPiece := [⟨31, 20, 0⟩]

/-- R42's list. -/
def gatherS : List GatherPiece := [⟨31, 25, 5⟩, ⟨11, 7, 0⟩]

/-- R43's list. -/
def gatherB : List GatherPiece := [⟨31, 31, 12⟩, ⟨7, 7, 11⟩, ⟨30, 25, 5⟩, ⟨11, 8, 1⟩]

/-- R44's list. -/
def gatherU : List GatherPiece := [⟨31, 12, 12⟩]

/-- R45's list. -/
def gatherJ : List GatherPiece := [⟨31, 31, 20⟩, ⟨19, 12, 12⟩, ⟨20, 20, 11⟩, ⟨30, 21, 1⟩]

/-- The unsigned value a gather list collects from a word: each slice at its place, every other bit 0. -/
def gather (pieces : List GatherPiece) (w : Word) : Nat :=
  match pieces with
  | [] => 0
  | p :: rest => (((w.toNat >>> p.lo) &&& ((1 <<< (p.hi - p.lo + 1)) - 1)) <<< p.dst) ||| gather rest w

/-- The word bits a gather list reads. -/
def gatherSources (pieces : List GatherPiece) : List Nat :=
  pieces.flatMap fun p => List.range' p.lo (p.hi - p.lo + 1)

/-- The immediate bits a gather list fills. -/
def gatherTargets (pieces : List GatherPiece) : List Nat :=
  pieces.flatMap fun p => List.range' p.dst (p.hi - p.lo + 1)

/-! ## Opcode/funct dispatch multiplexer (R48 to R57) -/

/-- Second level of opcode 0x33 (R49): funct7 is consulted for funct3 0 and 5 only (D9); a funct7 other than 0x00 and 0x20 there is
unknown under `R_PAIR_EXACT` and the first of the pair otherwise (D8). The funct3 values 1, 2, 3, 4, 6, 7 are R49 note (a)'s. -/
def dispatchR (cfg : Config) (funct3 : BitVec 3) (funct7 : BitVec 7) : Kind :=
  if funct3 = 0 then
    if funct7 = 0x20 then .sub else if funct7 = 0x00 ∨ cfg.rPairExact = false then .add else .unknown
  else if funct3 = 1 then .sll
  else if funct3 = 2 then .slt
  else if funct3 = 3 then .sltu
  else if funct3 = 4 then .xor
  else if funct3 = 5 then
    if funct7 = 0x20 then .sra else if funct7 = 0x00 ∨ cfg.rPairExact = false then .srl else .unknown
  else if funct3 = 6 then .or
  else .and

/-- Second level of opcode 0x03 (R50). -/
def dispatchLoad (funct3 : BitVec 3) : Kind :=
  if funct3 = 0 then .lb
  else if funct3 = 1 then .lh
  else if funct3 = 2 then .lw
  else if funct3 = 4 then .lbu
  else if funct3 = 5 then .lhu
  else .unknown

/-- Second level of opcode 0x13 (R51): funct3 5 is `srli` when the whole of `word[31:25]` is zero and `srai` otherwise
(90_conflicts.md C3). -/
def dispatchOpImm (funct3 : BitVec 3) (upper : BitVec 7) : Kind :=
  if funct3 = 0 then .addi
  else if funct3 = 1 then .slli
  else if funct3 = 2 then .slti
  else if funct3 = 3 then .sltiu
  else if funct3 = 4 then .xori
  else if funct3 = 5 then if upper = 0x00 then .srli else .srai
  else if funct3 = 6 then .ori
  else .andi

/-- Second level of opcode 0x63 (R52). -/
def dispatchBranch (funct3 : BitVec 3) : Kind :=
  if funct3 = 0 then .beq
  else if funct3 = 1 then .bne
  else if funct3 = 4 then .blt
  else if funct3 = 5 then .bge
  else if funct3 = 6 then .bltu
  else if funct3 = 7 then .bgeu
  else .unknown

/-- Second level of opcode 0x23 (R53). -/
def dispatchStore (funct3 : BitVec 3) : Kind :=
  if funct3 = 0 then .sb
  else if funct3 = 1 then .sh
  else if funct3 = 2 then .sw
  else .unknown

/-- The dispatcher: the first level looks at the opcode alone (R48); 0x37, 0x17, 0x6F and 0x67 select by themselves (R54, R55, D10);
any other opcode is unknown (R56). -/
def dispatch (cfg : Config) (w : Word) : Kind :=
  if opcodeOf w = 0x33 then dispatchR cfg (funct3Of w) (funct7Of w)
  else if opcodeOf w = 0x03 then dispatchLoad (funct3Of w)
  else if opcodeOf w = 0x13 then dispatchOpImm (funct3Of w) (funct7Of w)
  else if opcodeOf w = 0x63 then dispatchBranch (funct3Of w)
  else if opcodeOf w = 0x23 then dispatchStore (funct3Of w)
  else if opcodeOf w = 0x37 then .lui
  else if opcodeOf w = 0x17 then .auipc
  else if opcodeOf w = 0x6F then .jal
  else if opcodeOf w = 0x67 then .jalr
  else .unknown

/-- The instruction of a kind with the operands its format takes from the word (R40, R118). -/
def instrOfKind (k : Kind) (w : Word) : Instr :=
  match k with
  | .unknown => .unknown
  | .add => .add (rdOf w) (rs1Of w) (rs2Of w)
  | .sub => .sub (rdOf w) (rs1Of w) (rs2Of w)
  | .sll => .sll (rdOf w) (rs1Of w) (rs2Of w)
  | .slt => .slt (rdOf w) (rs1Of w) (rs2Of w)
  | .sltu => .sltu (rdOf w) (rs1Of w) (rs2Of w)
  | .xor => .xor (rdOf w) (rs1Of w) (rs2Of w)
  | .srl => .srl (rdOf w) (rs1Of w) (rs2Of w)
  | .sra => .sra (rdOf w) (rs1Of w) (rs2Of w)
  | .or => .or (rdOf w) (rs1Of w) (rs2Of w)
  | .and => .and (rdOf w) (rs1Of w) (rs2Of w)
  | .lb => .lb (rdOf w) (immIField w) (rs1Of w)
  | .lh => .lh (rdOf w) (immIField w) (rs1Of w)
  | .lw => .lw (rdOf w) (immIField w) (rs1Of w)
  | .lbu => .lbu (rdOf w) (immIField w) (rs1Of w)
  | .lhu => .lhu (rdOf w) (immIField w) (rs1Of w)
  | .addi => .addi (rdOf w) (rs1Of w) (immIField w)
  | .slti => .slti (rdOf w) (rs1Of w) (immIField w)
  | .sltiu => .sltiu (rdOf w) (rs1Of w) (immIField w)
  | .xori => .xori (rdOf w) (rs1Of w) (immIField w)
  | .ori => .ori (rdOf w) (rs1Of w) (immIField w)
  | .andi => .andi (rdOf w) (rs1Of w) (immIField w)
  | .slli => .slli (rdOf w) (rs1Of w) (immIField w)
  | .srli => .srli (rdOf w) (rs1Of w) (rs2Of w)
  | .srai => .srai (rdOf w) (rs1Of w) (rs2Of w)
  | .beq => .beq (rs1Of w) (rs2Of w) (immBField w)
  | .bne => .bne (rs1Of w) (rs2Of w) (immBField w)
  | .blt => .blt (rs1Of w) (rs2Of w) (immBField w)
  | .bge => .bge (rs1Of w) (rs2Of w) (immBField w)
  | .bltu => .bltu (rs1Of w) (rs2Of w) (immBField w)
  | .bgeu => .bgeu (rs1Of w) (rs2Of w) (immBField w)
  | .sb => .sb (rs2Of w) (immSField w) (rs1Of w)
  | .sh => .sh (rs2Of w) (immSField w) (rs1Of w)
  | .sw => .sw (rs2Of w) (immSField w) (rs1Of w)
  | .lui => .lui (rdOf w) (immUField w)
  | .auipc => .auipc (rdOf w) (immUField w)
  | .jal => .jal (rdOf w) (immJField w)
  | .jalr => .jalr (rdOf w) (immIField w) (rs1Of w)

/-- The decoder of one word: total on all 2^32 words (R19, R57), an unrecognised one being the unknown result, not an error
(R106). -/
def decode (cfg : Config) (w : Word) : Instr := instrOfKind (dispatch cfg w) w

/-! ## From bytes to words (R26, R27) -/

/-- The word the collaborator assembles from four consecutive bytes, least significant first (R26). -/
def assemble (b0 b1 b2 b3 : Byte) : Word := b3 ++ b2 ++ b1 ++ b0

/-- The four bytes a word is assembled from, in the order of increasing offsets (R26). -/
def wordBytes (w : Word) : List Byte :=
  [w.extractLsb' 0 8, w.extractLsb' 8 8, w.extractLsb' 16 8, w.extractLsb' 24 8]

/-- The first 4-byte chunk of a byte list, assembled, and the bytes after it (R27); none when fewer than four bytes are left. -/
def takeWord (bytes : List Byte) : Option (Word × List Byte) :=
  match bytes with
  | b0 :: b1 :: b2 :: b3 :: rest => some (assemble b0 b1 b2 b3, rest)
  | _ => none

/-- Why a list of bytes holds no instruction. -/
inductive DecodeError where
  /-- Fewer than four bytes: "A chunk is never shorter than four bytes" (R27), and the block is never called with a partial word
  (R135). Raised by `decodeBytes`; safe: the collaborator may present no such chunk. -/
  | partWord
deriving DecidableEq, Repr

/-- The decoder of a list of bytes: the instruction of its first chunk and the bytes after it. Total on any bytes. -/
def decodeBytes (cfg : Config) (bytes : List Byte) : Except DecodeError (Instr × List Byte) :=
  match takeWord bytes with
  | some (w, rest) => .ok (decode cfg w, rest)
  | none => .error .partWord

/-! ## The encoder: the layouts of R40, the fixed bits of R58 -/

/-- R-type layout (R40). -/
def rWord (funct7 : BitVec 7) (rs2 rs1 : RegIdx) (funct3 : BitVec 3) (rd : RegIdx) (opcode : BitVec 7) : Word :=
  funct7 ++ rs2 ++ rs1 ++ funct3 ++ rd ++ opcode

/-- I-type layout (R40). -/
def iWord (imm : BitVec 12) (rs1 : RegIdx) (funct3 : BitVec 3) (rd : RegIdx) (opcode : BitVec 7) : Word :=
  imm ++ rs1 ++ funct3 ++ rd ++ opcode

/-- S-type layout (R40). -/
def sWord (imm : BitVec 12) (rs2 rs1 : RegIdx) (funct3 : BitVec 3) (opcode : BitVec 7) : Word :=
  imm.extractLsb' 5 7 ++ rs2 ++ rs1 ++ funct3 ++ imm.extractLsb' 0 5 ++ opcode

/-- B-type layout (R40). -/
def bWord (imm : BitVec 13) (rs2 rs1 : RegIdx) (funct3 : BitVec 3) (opcode : BitVec 7) : Word :=
  imm.extractLsb' 12 1 ++ imm.extractLsb' 5 6 ++ rs2 ++ rs1 ++ funct3 ++ imm.extractLsb' 1 4 ++ imm.extractLsb' 11 1 ++ opcode

/-- U-type layout (R40). -/
def uWord (imm : BitVec 32) (rd : RegIdx) (opcode : BitVec 7) : Word :=
  imm.extractLsb' 12 20 ++ rd ++ opcode

/-- J-type layout (R40). -/
def jWord (imm : BitVec 21) (rd : RegIdx) (opcode : BitVec 7) : Word :=
  imm.extractLsb' 20 1 ++ imm.extractLsb' 1 10 ++ imm.extractLsb' 11 1 ++ imm.extractLsb' 12 8 ++ rd ++ opcode

/-- A word of a well-formed instruction. Where the dispatch ignores bits (R61) the encoder writes zeros there, and the standard 0x20 for
`srai` (R89); for the unknown result it gives R106's example 0x00000000. -/
def encode (i : Instr) : Word :=
  match i with
  | .add rd rs1 rs2 => rWord 0x00 rs2 rs1 0 rd 0x33
  | .sub rd rs1 rs2 => rWord 0x20 rs2 rs1 0 rd 0x33
  | .sll rd rs1 rs2 => rWord 0x00 rs2 rs1 1 rd 0x33
  | .slt rd rs1 rs2 => rWord 0x00 rs2 rs1 2 rd 0x33
  | .sltu rd rs1 rs2 => rWord 0x00 rs2 rs1 3 rd 0x33
  | .xor rd rs1 rs2 => rWord 0x00 rs2 rs1 4 rd 0x33
  | .srl rd rs1 rs2 => rWord 0x00 rs2 rs1 5 rd 0x33
  | .sra rd rs1 rs2 => rWord 0x20 rs2 rs1 5 rd 0x33
  | .or rd rs1 rs2 => rWord 0x00 rs2 rs1 6 rd 0x33
  | .and rd rs1 rs2 => rWord 0x00 rs2 rs1 7 rd 0x33
  | .lb rd imm rs1 => iWord imm rs1 0 rd 0x03
  | .lh rd imm rs1 => iWord imm rs1 1 rd 0x03
  | .lw rd imm rs1 => iWord imm rs1 2 rd 0x03
  | .lbu rd imm rs1 => iWord imm rs1 4 rd 0x03
  | .lhu rd imm rs1 => iWord imm rs1 5 rd 0x03
  | .addi rd rs1 imm => iWord imm rs1 0 rd 0x13
  | .slti rd rs1 imm => iWord imm rs1 2 rd 0x13
  | .sltiu rd rs1 imm => iWord imm rs1 3 rd 0x13
  | .xori rd rs1 imm => iWord imm rs1 4 rd 0x13
  | .ori rd rs1 imm => iWord imm rs1 6 rd 0x13
  | .andi rd rs1 imm => iWord imm rs1 7 rd 0x13
  | .slli rd rs1 imm => iWord imm rs1 1 rd 0x13
  | .srli rd rs1 shamt => rWord 0x00 shamt rs1 5 rd 0x13
  | .srai rd rs1 shamt => rWord 0x20 shamt rs1 5 rd 0x13
  | .beq rs1 rs2 imm => bWord imm rs2 rs1 0 0x63
  | .bne rs1 rs2 imm => bWord imm rs2 rs1 1 0x63
  | .blt rs1 rs2 imm => bWord imm rs2 rs1 4 0x63
  | .bge rs1 rs2 imm => bWord imm rs2 rs1 5 0x63
  | .bltu rs1 rs2 imm => bWord imm rs2 rs1 6 0x63
  | .bgeu rs1 rs2 imm => bWord imm rs2 rs1 7 0x63
  | .sb rs2 imm rs1 => sWord imm rs2 rs1 0 0x23
  | .sh rs2 imm rs1 => sWord imm rs2 rs1 1 0x23
  | .sw rs2 imm rs1 => sWord imm rs2 rs1 2 0x23
  | .lui rd imm => uWord imm rd 0x37
  | .auipc rd imm => uWord imm rd 0x17
  | .jal rd imm => jWord imm rd 0x6F
  | .jalr rd imm rs1 => iWord imm rs1 0 rd 0x67
  | .unknown => 0x00000000

/-! ## The opcode table as data (R58, R62) -/

/-- One row of the table: a word is the row's when `(w & mask) = pattern` and, for `srai`, `word[31:25] != 0`. -/
structure TableRow where
  kind : Kind
  mask : Word
  pattern : Word
  upperNonzero : Bool
deriving DecidableEq, Repr

/-- The rows of R58 with opcode 0x33. -/
def rTypeRows : List TableRow := [
  ⟨.add, 0xFE00707F, 0x00000033, false⟩,
  ⟨.sub, 0xFE00707F, 0x40000033, false⟩,
  ⟨.sll, 0x0000707F, 0x00001033, false⟩,
  ⟨.slt, 0x0000707F, 0x00002033, false⟩,
  ⟨.sltu, 0x0000707F, 0x00003033, false⟩,
  ⟨.xor, 0x0000707F, 0x00004033, false⟩,
  ⟨.srl, 0xFE00707F, 0x00005033, false⟩,
  ⟨.sra, 0xFE00707F, 0x40005033, false⟩,
  ⟨.or, 0x0000707F, 0x00006033, false⟩,
  ⟨.and, 0x0000707F, 0x00007033, false⟩]

/-- The rows of R58 with opcode 0x03. -/
def loadRows : List TableRow := [
  ⟨.lb, 0x0000707F, 0x00000003, false⟩,
  ⟨.lh, 0x0000707F, 0x00001003, false⟩,
  ⟨.lw, 0x0000707F, 0x00002003, false⟩,
  ⟨.lbu, 0x0000707F, 0x00004003, false⟩,
  ⟨.lhu, 0x0000707F, 0x00005003, false⟩]

/-- The rows of R58 with opcode 0x13. -/
def opImmRows : List TableRow := [
  ⟨.addi, 0x0000707F, 0x00000013, false⟩,
  ⟨.slti, 0x0000707F, 0x00002013, false⟩,
  ⟨.sltiu, 0x0000707F, 0x00003013, false⟩,
  ⟨.xori, 0x0000707F, 0x00004013, false⟩,
  ⟨.ori, 0x0000707F, 0x00006013, false⟩,
  ⟨.andi, 0x0000707F, 0x00007013, false⟩,
  ⟨.slli, 0x0000707F, 0x00001013, false⟩,
  ⟨.srli, 0xFE00707F, 0x00005013, false⟩,
  ⟨.srai, 0x0000707F, 0x00005013, true⟩]

/-- The rows of R58 with opcode 0x63. -/
def branchRows : List TableRow := [
  ⟨.beq, 0x0000707F, 0x00000063, false⟩,
  ⟨.bne, 0x0000707F, 0x00001063, false⟩,
  ⟨.blt, 0x0000707F, 0x00004063, false⟩,
  ⟨.bge, 0x0000707F, 0x00005063, false⟩,
  ⟨.bltu, 0x0000707F, 0x00006063, false⟩,
  ⟨.bgeu, 0x0000707F, 0x00007063, false⟩]

/-- The rows of R58 with opcode 0x23. -/
def storeRows : List TableRow := [
  ⟨.sb, 0x0000707F, 0x00000023, false⟩,
  ⟨.sh, 0x0000707F, 0x00001023, false⟩,
  ⟨.sw, 0x0000707F, 0x00002023, false⟩]

/-- The rows of R58 with opcodes 0x37, 0x17, 0x6F and 0x67. -/
def upperJumpRows : List TableRow := [
  ⟨.lui, 0x0000007F, 0x00000037, false⟩,
  ⟨.auipc, 0x0000007F, 0x00000017, false⟩,
  ⟨.jal, 0x0000007F, 0x0000006F, false⟩,
  ⟨.jalr, 0x0000007F, 0x00000067, false⟩]

/-- The 37 rows of the recognised instructions, in the order of R58. They are written for `R_PAIR_EXACT` true (R62). -/
def recognisedRows : List TableRow :=
  rTypeRows ++ loadRows ++ opImmRows ++ branchRows ++ storeRows ++ upperJumpRows

/-- The whole file: the 37 rows and "one last row for unknown with mask = 0 and match = 0" (R62). -/
def opcodeTable : List TableRow := recognisedRows ++ [⟨.unknown, 0x00000000, 0x00000000, false⟩]

/-- `(word & mask) = match` (R58, R62). -/
def TableRow.selects (r : TableRow) (w : Word) : Bool := w &&& r.mask == r.pattern

/-- The row's whole condition, the extra one among it (R58). -/
def TableRow.holds (r : TableRow) (w : Word) : Bool := r.selects w && (!r.upperNonzero || funct7Of w != 0)

/-- A decoder written from the table alone: "takes the rows in order and returns the first row with (word & mask) = match" (R62). -/
def tableKind (w : Word) : Kind :=
  match opcodeTable.find? (fun r => r.selects w) with
  | some r => r.kind
  | none => .unknown

/-! ## The host's entry -/

/-- The instruction the decoder reads from a word of the opcode table, laid out in bytes as the collaborator's image holds it (R26), with
the block's own parameters, for which the table is written (R62). -/
def decodeTableWord (nbits w : Nat) : Option Instr :=
  match decodeBytes blockConfig (wordBytes (BitVec.ofNat 32 (w % 2 ^ nbits))) with
  | .ok (i, _) => some i
  | .error _ => none

end Sys2Proof
end

