-- ==== Sys2Proof/Machine/State.lean ====
section
/-! DEFINITION. The state of the machine as plain data: the block's signals (10_state.md R18), its build constants (R14), and the
collaborator's side of the contract (20_memory.md R27, 70_reset_and_hazards.md R139, R140). The block itself has no architectural
state (R10 to R17). -/

namespace Sys2Proof.Machine

/-- The output signals of R18. The ports `text` and `text_len` are the packing of `text` (R124) and are computed from it
(`State.textPort`, `State.textLenPort`, Machine/Formatter.lean); `kind` and `tmpl` are held as the enumerations whose codes
the ports carry (D2, D3; `Kind.code`, `Template.code`). -/
structure Outputs where
  /-- The six ports `opcode`, `rd`, `funct3`, `rs1`, `rs2`, `funct7` (R20). -/
  fields : FieldSet
  /-- 1 = recognised, 0 = unknown (R21). -/
  known : Bool
  /-- Which of the 37 instructions, or unknown (R21, R58). -/
  kind : Kind
  /-- The operand template (R22, R117). -/
  tmpl : Template
  /-- The value the formatter prints, in two's complement; 0 where there is none (R23, D4). -/
  imm : BitVec 32
  /-- 1 = the instruction has an immediate operand (R23). -/
  immValid : Bool
  /-- The rendered text (R111). -/
  text : Text
deriving DecidableEq, Repr

/-- The machine: the block and the collaborator that feeds it. One step is one call (R9).

`cfg` is constant (R14); `word` and `out` are the block's signals (R18); `image` and `listing` are the collaborator's, the host
interface of the model (log 1). -/
structure State where
  /-- The parameters the block was built with (R5, R14). No instruction writes them. -/
  cfg : Config
  /-- The bytes of the instruction image not yet presented, lowest offset first (R26, R27). -/
  image : List Byte
  /-- The input signal `word` (R19). -/
  word : Word
  /-- The output signals (R18). -/
  out : Outputs
  /-- One text for each call so far, oldest first (R140). -/
  listing : List Text
deriving DecidableEq, Repr

/-- Why a step stops with a fault: no reason exists. "There are no exceptions/errors in this component" (R126), "no error or fault
alternative"; an unrecognised word is a value of the result (R127). Safe: nothing raises it. -/
inductive Fault
deriving DecidableEq, Repr

/-- Why a step is refused. -/
inductive Refusal where
  /-- An instruction whose arm of `exec` has no meaning yet. Raised by Dispatch.lean's refused arms alone (there is none now).
  Safe: nothing can be proved of an instruction refused so. -/
  | notModelled (mnemonic : String)
  /-- The image's length is not a multiple of 4: the collaborator "must reject inputs whose total byte length is not a multiple of 4
  before invoking the core" (R27, R139 (a)); ID7 has a model of a run refuse it. Raised by `fetch`, before the block is called.
  Safe: the block is then never called. -/
  | imageNotWholeWords
deriving DecidableEq, Repr

/-- The outputs for the word `0x00000000` (R106's worked example; R20 for the fields). -/
def Outputs.reset : Outputs where
  fields := { opcode := 0, rd := 0, funct3 := 0, rs1 := 0, rs2 := 0, funct7 := 0 }
  known := false
  kind := .unknown
  tmpl := .NONE
  imm := 0x00000000
  immValid := false
  text := "unknown instruction".toList

/-- The machine before any call. The block has no reset input and nothing to reset (R24, R136); its parameters are R5's, and its
outputs are "the function of the present value of `word`" (R24). The value of the undriven `word` is the model's choice (log 3), and no
image is loaded (log 1, 7). -/
def State.reset : State where
  cfg := blockConfig
  image := []
  word := 0x00000000
  out := Outputs.reset
  listing := []

end Sys2Proof.Machine
end

