-- ==== Sys2Proof/Machine/Flags.lean ====
section
/-! DEFINITION. The block has no flag and no condition code (10_state.md R13). What stands in this file's place are the combinational
outputs R13 names, `known` and `imm_valid`, and the `imm` port they go with (R21, R23). -/

namespace Sys2Proof.Machine

/-- `known = (kind != 0)` (R21). -/
def knownOf (k : Kind) : Bool := k != .unknown

/-- `bv32(i)`: the 32-bit two's complement spelling of an integer (R7). -/
def bv32 (i : Int) : BitVec 32 := BitVec.ofInt 32 i

/-- `imm_valid`: 1 when the instruction has an immediate operand (R23). -/
def immValidOf (v : Option Int) : Bool := v.isSome

/-- `imm`: `bv32` of the value the formatter prints, and `0x00000000` where there is none (R23, D4, D12). -/
def immPortOf (v : Option Int) : BitVec 32 :=
  match v with
  | some i => bv32 i
  | none => 0x00000000

end Sys2Proof.Machine
end

