-- ==== Sys2Proof/Machine/Operands.lean ====
section
/-! DEFINITION. How the formatter spells an operand (47_formatter.md R113 to R115): decimal numbers and register names. The block has no
other operand form: no addressing mode computes an address (R25, R74). -/

namespace Sys2Proof.Machine

/-- The character with code `0x30 + d` (R114). -/
def digit (d : Nat) : Char := Char.ofNat (0x30 + d)

/-- R114's recursion, `fuel` bounding its depth. -/
def udecFuel (fuel n : Nat) : Text :=
  match fuel with
  | 0 => [digit n]
  | fuel + 1 => if n < 10 then [digit n] else udecFuel fuel (n / 10) ++ [digit (n % 10)]

/-- `udec(n)`: the decimal numeral of `n` (R114). The depth `n` always suffices (Laws/Formatter.lean `udec_eq`). -/
def udec (n : Nat) : Text := udecFuel n n

/-- `sdec(i)`: `udec(i)`, or `-` and the numeral of the magnitude; the negation is on integers (R115). -/
def sdec (i : Int) : Text :=
  if 0 ≤ i then udec i.toNat else '-' :: udec (-i).toNat

/-- `reg(i)`: `x` and the decimal index (R113). -/
def reg (i : RegIdx) : Text := 'x' :: udec i.toNat

end Sys2Proof.Machine
end

