-- ==== Sys2Proof/Machine/Formatter.lean ====
section
/-! DEFINITION. The mnemonic and operand formatter (47_formatter.md): mnemonics (R112), the codes of `kind` and `tmpl` (R58, R117), the
templates (R116, R117), the unknown text (R120) and the packing of the text port (R124). -/

namespace Sys2Proof

open Sys2Proof.Machine

/-- The code the port `kind` carries: 0 for unknown, 1 to 37 in the order of R58 (R21, D2). -/
def Kind.code (k : Kind) : BitVec 6 :=
  match k with
  | .unknown => 0
  | .add => 1
  | .sub => 2
  | .sll => 3
  | .slt => 4
  | .sltu => 5
  | .xor => 6
  | .srl => 7
  | .sra => 8
  | .or => 9
  | .and => 10
  | .lb => 11
  | .lh => 12
  | .lw => 13
  | .lbu => 14
  | .lhu => 15
  | .addi => 16
  | .slti => 17
  | .sltiu => 18
  | .xori => 19
  | .ori => 20
  | .andi => 21
  | .slli => 22
  | .srli => 23
  | .srai => 24
  | .beq => 25
  | .bne => 26
  | .blt => 27
  | .bge => 28
  | .bltu => 29
  | .bgeu => 30
  | .sb => 31
  | .sh => 32
  | .sw => 33
  | .lui => 34
  | .auipc => 35
  | .jal => 36
  | .jalr => 37

/-- The mnemonic's spelling (R112). Unknown has none: its text is `unknownText`, and this row is never printed. -/
def Kind.mnemonic (k : Kind) : Text :=
  match k with
  | .unknown => []
  | .add => "add".toList
  | .sub => "sub".toList
  | .sll => "sll".toList
  | .slt => "slt".toList
  | .sltu => "sltu".toList
  | .xor => "xor".toList
  | .srl => "srl".toList
  | .sra => "sra".toList
  | .or => "or".toList
  | .and => "and".toList
  | .lb => "lb".toList
  | .lh => "lh".toList
  | .lw => "lw".toList
  | .lbu => "lbu".toList
  | .lhu => "lhu".toList
  | .addi => "addi".toList
  | .slti => "slti".toList
  | .sltiu => "sltiu".toList
  | .xori => "xori".toList
  | .ori => "ori".toList
  | .andi => "andi".toList
  | .slli => "slli".toList
  | .srli => "srli".toList
  | .srai => "srai".toList
  | .beq => "beq".toList
  | .bne => "bne".toList
  | .blt => "blt".toList
  | .bge => "bge".toList
  | .bltu => "bltu".toList
  | .bgeu => "bgeu".toList
  | .sb => "sb".toList
  | .sh => "sh".toList
  | .sw => "sw".toList
  | .lui => "lui".toList
  | .auipc => "auipc".toList
  | .jal => "jal".toList
  | .jalr => "jalr".toList

/-- The template of a kind: `tmpl` "is a function of `kind` alone" (R22; R58, column "template"). -/
def Kind.template (k : Kind) : Template :=
  match k with
  | .unknown => .NONE
  | .add => .R
  | .sub => .R
  | .sll => .R
  | .slt => .R
  | .sltu => .R
  | .xor => .R
  | .srl => .R
  | .sra => .R
  | .or => .R
  | .and => .R
  | .lb => .IMEM
  | .lh => .IMEM
  | .lw => .IMEM
  | .lbu => .IMEM
  | .lhu => .IMEM
  | .addi => .IARITH
  | .slti => .IARITH
  | .sltiu => .IARITH
  | .xori => .IARITH
  | .ori => .IARITH
  | .andi => .IARITH
  | .slli => .IARITH
  | .srli => .IARITH
  | .srai => .IARITH
  | .beq => .B
  | .bne => .B
  | .blt => .B
  | .bge => .B
  | .bltu => .B
  | .bgeu => .B
  | .sb => .S
  | .sh => .S
  | .sw => .S
  | .lui => .U
  | .auipc => .U
  | .jal => .J
  | .jalr => .IMEM

/-- The code the port `tmpl` carries (R22, R117, D3). -/
def Template.code (t : Template) : BitVec 3 :=
  match t with
  | .NONE => 0
  | .R => 1
  | .IMEM => 2
  | .IARITH => 3
  | .B => 4
  | .S => 5
  | .U => 6
  | .J => 7

namespace Machine

/-! ## The templates (R117): `m` is the mnemonic, `v` the immediate printed. -/

/-- The 19 characters of the unknown result (R120). -/
def unknownText : Text := "unknown instruction".toList

/-- Exactly one space between the mnemonic and the first operand (R116). -/
def space : Text := [' ']

/-- Exactly one comma and one space between operands (R116). -/
def comma : Text := [',', ' ']

/-- `imm(xRS1)`, with no space anywhere inside (R116). -/
def memOperand (v : Int) (base : RegIdx) : Text := sdec v ++ ['('] ++ reg base ++ [')']

/-- `R`: `m xRD, xRS1, xRS2`. -/
def textR (m : Text) (rd rs1 rs2 : RegIdx) : Text := m ++ space ++ reg rd ++ comma ++ reg rs1 ++ comma ++ reg rs2

/-- `IMEM`: `m xRD, imm(xRS1)`. -/
def textIMem (m : Text) (rd : RegIdx) (v : Int) (rs1 : RegIdx) : Text := m ++ space ++ reg rd ++ comma ++ memOperand v rs1

/-- `IARITH`: `m xRD, xRS1, imm`. -/
def textIArith (m : Text) (rd rs1 : RegIdx) (v : Int) : Text := m ++ space ++ reg rd ++ comma ++ reg rs1 ++ comma ++ sdec v

/-- `B`: `m xRS1, xRS2, imm`. -/
def textB (m : Text) (rs1 rs2 : RegIdx) (v : Int) : Text := m ++ space ++ reg rs1 ++ comma ++ reg rs2 ++ comma ++ sdec v

/-- `S`: `m xRS2, imm(xRS1)`: the register to be stored first (R97, R122). -/
def textS (m : Text) (rs2 : RegIdx) (v : Int) (rs1 : RegIdx) : Text := m ++ space ++ reg rs2 ++ comma ++ memOperand v rs1

/-- `U`: `m xRD, imm`. -/
def textU (m : Text) (rd : RegIdx) (v : Int) : Text := m ++ space ++ reg rd ++ comma ++ sdec v

/-- `J`: `m xRD, imm`. -/
def textJ (m : Text) (rd : RegIdx) (v : Int) : Text := m ++ space ++ reg rd ++ comma ++ sdec v

/-! ## The text port (R124) -/

/-- `TEXT_MAX`: the most characters a text has (R5, R125). -/
def textMax (cfg : Config) : Nat := if cfg.uRenderSigned then 22 else 21

/-- A character's ASCII code in one byte (R124, D5). -/
def charCode (c : Char) : Byte := BitVec.ofNat 8 c.toNat

/-- The number whose base-256 digits are the codes of the first `n` characters, character 0 lowest, and zeros beyond the text. -/
def packNat (n : Nat) (t : Text) : Nat :=
  match n, t with
  | 0, _ => 0
  | _ + 1, [] => 0
  | n + 1, c :: t => (charCode c).toNat + 256 * packNat n t

/-- The port `text`: character `j` in bits `8j+7:8j`, every byte from the text's length up `0x00` (R124). -/
def packText (cfg : Config) (t : Text) : BitVec (8 * textMax cfg) := BitVec.ofNat _ (packNat (textMax cfg) t)

/-- Byte `j` of a text port, its bits `8j+7:8j` (R124). -/
def portByte {n : Nat} (port : BitVec n) (j : Nat) : Byte := port.extractLsb' (8 * j) 8

/-- The output `text` as the port carries it. -/
def State.textPort (s : State) : BitVec (8 * textMax s.cfg) := packText s.cfg s.out.text

/-- The output `text_len`, the number of characters (R124). -/
def State.textLenPort (s : State) : BitVec 5 := BitVec.ofNat 5 s.out.text.length

end Machine

end Sys2Proof
end

