-- ==== Sys2Proof/Machine/Ops.lean ====
section
/-! DEFINITION. The named operations every meaning is written over: presenting a word, taking the next chunk of the image, and driving
the outputs by template. The block has no register file, no memory and no program counter to operate on (10_state.md R11, R12, R16).
TAKING AN EXCEPTION has no operation here because there is none to take: the block raises no exception (60_exceptions.md R126), enters
no trap, saves nothing (R130) and returns from none (R131). -/

namespace Sys2Proof.Machine

/-! ## The collaborator's side -/

/-- Drive the input `word` (R19). The outputs follow in the call that evaluates it. -/
def State.present (s : State) (w : Word) : State := { s with word := w }

/-- The image after the chunk that is being presented. -/
def State.withRest (s : State) (rest : List Byte) : State := { s with image := rest }

/-- The next word the collaborator presents: it rejects an image whose length is not a multiple of 4 before any call (R27, R139 (a)),
assembles the next 4-byte chunk (R26, R139 (b), (c)), and has nothing to present when the image is used up (R140). -/
def fetch (s : State) : Except Refusal (Option (Word × List Byte)) :=
  if s.image.length % 4 = 0 then .ok (takeWord s.image) else .error .imageNotWholeWords

/-- The longest part of a byte list that is cut in whole 4-byte chunks (R27). -/
def wholeWords (bytes : List Byte) : List Byte := bytes.take (4 * (bytes.length / 4))

/-! ## Driving the outputs -/

/-- Evaluate the outputs for the word that is presented: the Field Set from the word whatever it is (R20), `known` and `imm_valid` and
`imm` by R21 and R23 from the kind and the printed immediate, and the text. The collaborator reads the text into the listing (R140). -/
def drive (k : Kind) (t : Template) (v : Option Int) (txt : Text) (s : State) : State :=
  { s with
    out :=
      { fields := extractFields s.word
        known := knownOf k
        kind := k
        tmpl := t
        imm := immPortOf v
        immValid := immValidOf v
        text := txt }
    listing := s.listing ++ [txt] }

/-- The outputs of an R-type instruction (R63). -/
def driveR (k : Kind) (rd rs1 rs2 : RegIdx) (s : State) : State :=
  drive k .R none (textR k.mnemonic rd rs1 rs2) s

/-- The outputs of a load or `jalr` (R74, R105). -/
def driveIMem (k : Kind) (rd : RegIdx) (v : Int) (rs1 : RegIdx) (s : State) : State :=
  drive k .IMEM (some v) (textIMem k.mnemonic rd v rs1) s

/-- The outputs of an instruction of opcode 0x13 (R80). -/
def driveIArith (k : Kind) (rd rs1 : RegIdx) (v : Int) (s : State) : State :=
  drive k .IARITH (some v) (textIArith k.mnemonic rd rs1 v) s

/-- The outputs of a branch (R90). -/
def driveB (k : Kind) (rs1 rs2 : RegIdx) (v : Int) (s : State) : State :=
  drive k .B (some v) (textB k.mnemonic rs1 rs2 v) s

/-- The outputs of a store (R97). -/
def driveS (k : Kind) (rs2 : RegIdx) (v : Int) (rs1 : RegIdx) (s : State) : State :=
  drive k .S (some v) (textS k.mnemonic rs2 v rs1) s

/-- The outputs of `lui` or `auipc` (R102, R103). -/
def driveU (k : Kind) (rd : RegIdx) (v : Int) (s : State) : State :=
  drive k .U (some v) (textU k.mnemonic rd v) s

/-- The outputs of `jal` (R104). -/
def driveJ (k : Kind) (rd : RegIdx) (v : Int) (s : State) : State :=
  drive k .J (some v) (textJ k.mnemonic rd v) s

/-- The outputs of an unrecognised word (R106). -/
def driveNone (s : State) : State := drive .unknown .NONE none unknownText s

end Sys2Proof.Machine
end

