-- ==== Sys2Proof/Machine/Branches.lean ====
section
/-! DEFINITION. The meanings of the conditional branches, opcode 0x63 (43_branches.md R90 to R96): nothing is compared and no target is computed (R12). -/

namespace Sys2Proof.Machine

/-- `beq` (R91). -/
def execBeq (rs1 rs2 : RegIdx) (imm : BitVec 13) (s : State) : Host.Outcome State Fault Refusal :=
  .next (driveB .beq rs1 rs2 (sext imm) s)

/-- `bne` (R92). -/
def execBne (rs1 rs2 : RegIdx) (imm : BitVec 13) (s : State) : Host.Outcome State Fault Refusal :=
  .next (driveB .bne rs1 rs2 (sext imm) s)

/-- `blt` (R93). -/
def execBlt (rs1 rs2 : RegIdx) (imm : BitVec 13) (s : State) : Host.Outcome State Fault Refusal :=
  .next (driveB .blt rs1 rs2 (sext imm) s)

/-- `bge` (R94). -/
def execBge (rs1 rs2 : RegIdx) (imm : BitVec 13) (s : State) : Host.Outcome State Fault Refusal :=
  .next (driveB .bge rs1 rs2 (sext imm) s)

/-- `bltu` (R95). -/
def execBltu (rs1 rs2 : RegIdx) (imm : BitVec 13) (s : State) : Host.Outcome State Fault Refusal :=
  .next (driveB .bltu rs1 rs2 (sext imm) s)

/-- `bgeu` (R96). -/
def execBgeu (rs1 rs2 : RegIdx) (imm : BitVec 13) (s : State) : Host.Outcome State Fault Refusal :=
  .next (driveB .bgeu rs1 rs2 (sext imm) s)

end Sys2Proof.Machine
end

