-- ==== Sys2Proof/Machine/Loads.lean ====
section
/-! DEFINITION. The meanings of the loads, opcode 0x03 (41_loads.md R74 to R79): named and printed, nothing is read (R25). -/

namespace Sys2Proof.Machine

/-- `lb` (R75). -/
def execLb (rd : RegIdx) (imm : BitVec 12) (rs1 : RegIdx) (s : State) : Host.Outcome State Fault Refusal :=
  .next (driveIMem .lb rd (sext imm) rs1 s)

/-- `lh` (R76). -/
def execLh (rd : RegIdx) (imm : BitVec 12) (rs1 : RegIdx) (s : State) : Host.Outcome State Fault Refusal :=
  .next (driveIMem .lh rd (sext imm) rs1 s)

/-- `lw` (R77). -/
def execLw (rd : RegIdx) (imm : BitVec 12) (rs1 : RegIdx) (s : State) : Host.Outcome State Fault Refusal :=
  .next (driveIMem .lw rd (sext imm) rs1 s)

/-- `lbu` (R78). -/
def execLbu (rd : RegIdx) (imm : BitVec 12) (rs1 : RegIdx) (s : State) : Host.Outcome State Fault Refusal :=
  .next (driveIMem .lbu rd (sext imm) rs1 s)

/-- `lhu` (R79). -/
def execLhu (rd : RegIdx) (imm : BitVec 12) (rs1 : RegIdx) (s : State) : Host.Outcome State Fault Refusal :=
  .next (driveIMem .lhu rd (sext imm) rs1 s)

end Sys2Proof.Machine
end

