-- ==== Sys2Proof/Machine/OpImm.lean ====
section
/-! DEFINITION. The meanings of the register-immediate instructions, opcode 0x13 (42_op_imm.md R80 to R89). -/

namespace Sys2Proof.Machine

/-- `addi` (R81). -/
def execAddi (rd rs1 : RegIdx) (imm : BitVec 12) (s : State) : Host.Outcome State Fault Refusal :=
  .next (driveIArith .addi rd rs1 (sext imm) s)

/-- `slti` (R82). -/
def execSlti (rd rs1 : RegIdx) (imm : BitVec 12) (s : State) : Host.Outcome State Fault Refusal :=
  .next (driveIArith .slti rd rs1 (sext imm) s)

/-- `sltiu` (R83). -/
def execSltiu (rd rs1 : RegIdx) (imm : BitVec 12) (s : State) : Host.Outcome State Fault Refusal :=
  .next (driveIArith .sltiu rd rs1 (sext imm) s)

/-- `xori` (R84). -/
def execXori (rd rs1 : RegIdx) (imm : BitVec 12) (s : State) : Host.Outcome State Fault Refusal :=
  .next (driveIArith .xori rd rs1 (sext imm) s)

/-- `ori` (R85). -/
def execOri (rd rs1 : RegIdx) (imm : BitVec 12) (s : State) : Host.Outcome State Fault Refusal :=
  .next (driveIArith .ori rd rs1 (sext imm) s)

/-- `andi` (R86). -/
def execAndi (rd rs1 : RegIdx) (imm : BitVec 12) (s : State) : Host.Outcome State Fault Refusal :=
  .next (driveIArith .andi rd rs1 (sext imm) s)

/-- `slli` (R87): the whole signed 12-bit immediate, not masked (R47, D11). -/
def execSlli (rd rs1 : RegIdx) (imm : BitVec 12) (s : State) : Host.Outcome State Fault Refusal :=
  .next (driveIArith .slli rd rs1 (sext imm) s)

/-- `srli` (R88): the shift amount `word[24:20]`, 0 to 31 (R47). -/
def execSrli (rd rs1 : RegIdx) (shamt : BitVec 5) (s : State) : Host.Outcome State Fault Refusal :=
  .next (driveIArith .srli rd rs1 (shamtValue shamt) s)

/-- `srai` (R89): the printed value is the 5-bit shift amount, masked (R47). -/
def execSrai (rd rs1 : RegIdx) (shamt : BitVec 5) (s : State) : Host.Outcome State Fault Refusal :=
  .next (driveIArith .srai rd rs1 (shamtValue shamt) s)

end Sys2Proof.Machine
end

