-- ==== Sys2Proof/Machine/RType.lean ====
section
/-! DEFINITION. The meanings of the register-register instructions, opcode 0x33 (40_r_type.md R63 to R73). -/

namespace Sys2Proof.Machine

/-- `add` (R64). -/
def execAdd (rd rs1 rs2 : RegIdx) (s : State) : Host.Outcome State Fault Refusal :=
  .next (driveR .add rd rs1 rs2 s)

/-- `sub` (R65). -/
def execSub (rd rs1 rs2 : RegIdx) (s : State) : Host.Outcome State Fault Refusal :=
  .next (driveR .sub rd rs1 rs2 s)

/-- `sll` (R66). -/
def execSll (rd rs1 rs2 : RegIdx) (s : State) : Host.Outcome State Fault Refusal :=
  .next (driveR .sll rd rs1 rs2 s)

/-- `slt` (R67). -/
def execSlt (rd rs1 rs2 : RegIdx) (s : State) : Host.Outcome State Fault Refusal :=
  .next (driveR .slt rd rs1 rs2 s)

/-- `sltu` (R68). -/
def execSltu (rd rs1 rs2 : RegIdx) (s : State) : Host.Outcome State Fault Refusal :=
  .next (driveR .sltu rd rs1 rs2 s)

/-- `xor` (R69). -/
def execXor (rd rs1 rs2 : RegIdx) (s : State) : Host.Outcome State Fault Refusal :=
  .next (driveR .xor rd rs1 rs2 s)

/-- `srl` (R70). -/
def execSrl (rd rs1 rs2 : RegIdx) (s : State) : Host.Outcome State Fault Refusal :=
  .next (driveR .srl rd rs1 rs2 s)

/-- `sra` (R71). -/
def execSra (rd rs1 rs2 : RegIdx) (s : State) : Host.Outcome State Fault Refusal :=
  .next (driveR .sra rd rs1 rs2 s)

/-- `or` (R72). -/
def execOr (rd rs1 rs2 : RegIdx) (s : State) : Host.Outcome State Fault Refusal :=
  .next (driveR .or rd rs1 rs2 s)

/-- `and` (R73). -/
def execAnd (rd rs1 rs2 : RegIdx) (s : State) : Host.Outcome State Fault Refusal :=
  .next (driveR .and rd rs1 rs2 s)

end Sys2Proof.Machine
end

