-- ==== Sys2Proof/Machine/Stores.lean ====
section
/-! DEFINITION. The meanings of the stores, opcode 0x23 (44_stores.md R97 to R100): named and printed, nothing is written (R25). -/

namespace Sys2Proof.Machine

/-- `sb` (R98). -/
def execSb (rs2 : RegIdx) (imm : BitVec 12) (rs1 : RegIdx) (s : State) : Host.Outcome State Fault Refusal :=
  .next (driveS .sb rs2 (sext imm) rs1 s)

/-- `sh` (R99). -/
def execSh (rs2 : RegIdx) (imm : BitVec 12) (rs1 : RegIdx) (s : State) : Host.Outcome State Fault Refusal :=
  .next (driveS .sh rs2 (sext imm) rs1 s)

/-- `sw` (R100). -/
def execSw (rs2 : RegIdx) (imm : BitVec 12) (rs1 : RegIdx) (s : State) : Host.Outcome State Fault Refusal :=
  .next (driveS .sw rs2 (sext imm) rs1 s)

end Sys2Proof.Machine
end

