-- ==== Sys2Proof/Machine/Unknown.lean ====
section
/-! DEFINITION. The meaning of the unknown result (46_unknown.md R106): a normal result, not a trap (R59, R127). -/

namespace Sys2Proof.Machine

/-- `unknown` (R106). -/
def execUnknown (s : State) : Host.Outcome State Fault Refusal :=
  .next (driveNone s)

end Sys2Proof.Machine
end

