-- ==== Sys2Proof/Machine/UpperJumps.lean ====
section
/-! DEFINITION. The meanings of the `lui`, `auipc`, `jal` and `jalr` (45_upper_jumps.md R101 to R105): no link register is written and no target is computed. -/

namespace Sys2Proof.Machine

/-- `lui` (R102). -/
def execLui (rd : RegIdx) (imm : BitVec 32) (s : State) : Host.Outcome State Fault Refusal :=
  .next (driveU .lui rd (upperValue s.cfg imm) s)

/-- `auipc` (R103). -/
def execAuipc (rd : RegIdx) (imm : BitVec 32) (s : State) : Host.Outcome State Fault Refusal :=
  .next (driveU .auipc rd (upperValue s.cfg imm) s)

/-- `jal` (R104). -/
def execJal (rd : RegIdx) (imm : BitVec 21) (s : State) : Host.Outcome State Fault Refusal :=
  .next (driveJ .jal rd (sext imm) s)

/-- `jalr` (R105). -/
def execJalr (rd : RegIdx) (imm : BitVec 12) (rs1 : RegIdx) (s : State) : Host.Outcome State Fault Refusal :=
  .next (driveIMem .jalr rd (sext imm) rs1 s)

end Sys2Proof.Machine
end

