-- ==== Sys2Proof/Machine/Step.lean ====
section
/-! DEFINITION. One step: one call (00_scope.md R9). The collaborator presents the next word of the image and the block evaluates its
outputs for it; all that a step does beside `exec` is `fetch`, `State.withRest` and `State.present` (Machine/Ops.lean). -/

namespace Sys2Proof.Machine

/-- One call with any word, at any time and in any order (R9, R31): the word is presented and its outputs are evaluated. -/
def call (w : Word) (s : State) : Host.Outcome State Fault Refusal := exec (decode s.cfg w) (s.present w)

/-- The collaborator's run, one call at a time in image order (R27, R140). With the image used up nothing is presented and nothing
changes (log 5). -/
def step (s : State) : Host.Outcome State Fault Refusal :=
  match fetch s with
  | .error r => .refused r
  | .ok none => .next s
  | .ok (some (w, rest)) => call w (s.withRest rest)

/-- `s` with a word of the opcode table as the next 4-byte chunk of its image, in the place of the chunk that stood there; a trailing
part chunk, which the collaborator would reject (R27), is dropped. -/
def State.withFetchWord (s : State) (nbits w : Nat) : State :=
  { s with image := wordBytes (BitVec.ofNat 32 (w % 2 ^ nbits)) ++ wholeWords (s.image.drop 4) }

end Sys2Proof.Machine
end

