-- ==== Sys2Proof/Machine/Block.lean ====
section
/-! DEFINITION. The block as the spec first states it (INDEX.md, 10_state.md R10): one pure function from the word to its outputs,
the dispatch of R48 followed by the formatter of R117, read off the word's own slices. The meanings (`exec`) work from decoded operands
instead; that the two agree on every word is a claim (Certificates/Slice0/Obligations.lean `StepIsTheBlockFunction`). -/

namespace Sys2Proof.Machine

/-- R47's mask: take `bv32(immI(word))` and keep its low five bits. -/
def immMasked (w : Word) : Int := ((bv32 (immI w) &&& 0x1F).toNat : Int)

/-- The immediate a word's text prints, none where its template prints none (R118). -/
def printedImm (cfg : Config) (k : Kind) (w : Word) : Option Int :=
  match k.template with
  | .NONE => none
  | .R => none
  | .IMEM => some (immI w)
  | .IARITH => if k = .srai then some (immMasked w) else some (immI w)
  | .B => some (immB w)
  | .S => some (immS w)
  | .U => some (immU cfg w)
  | .J => some (immJ w)

/-- The text of a word of kind `k` that prints the immediate `v` (R117). -/
def renderWord (k : Kind) (v : Int) (w : Word) : Text :=
  match k.template with
  | .NONE => unknownText
  | .R => textR k.mnemonic (rdOf w) (rs1Of w) (rs2Of w)
  | .IMEM => textIMem k.mnemonic (rdOf w) v (rs1Of w)
  | .IARITH => textIArith k.mnemonic (rdOf w) (rs1Of w) v
  | .B => textB k.mnemonic (rs1Of w) (rs2Of w) v
  | .S => textS k.mnemonic (rs2Of w) v (rs1Of w)
  | .U => textU k.mnemonic (rdOf w) v
  | .J => textJ k.mnemonic (rdOf w) v

/-- `decode : Word32 -> Result` (R10): every output of R18 as a function of the word (and of the constants of R14). -/
def blockOutputs (cfg : Config) (w : Word) : Outputs where
  fields := extractFields w
  known := knownOf (dispatch cfg w)
  kind := dispatch cfg w
  tmpl := (dispatch cfg w).template
  imm := immPortOf (printedImm cfg (dispatch cfg w) w)
  immValid := immValidOf (printedImm cfg (dispatch cfg w) w)
  text := renderWord (dispatch cfg w) ((printedImm cfg (dispatch cfg w) w).getD 0) w

/-- The text of a word, the normative observable (R121, D20). -/
def renders (cfg : Config) (w : Word) : Text := (blockOutputs cfg w).text

end Sys2Proof.Machine
end

