-- ==== Sys2Proof/Machine/Collaborator.lean ====
section
/-! DEFINITION. The collaborator's contract over a whole image (20_memory.md R26, R27; 70_reset_and_hazards.md R139, R140). -/

namespace Sys2Proof.Machine

/-- The consecutive 4-byte chunks of an image from offset 0, each assembled to a word (R26, R27). Bytes after the last whole chunk are
no chunk. -/
def chunks (bytes : List Byte) : List Word :=
  match bytes with
  | b0 :: b1 :: b2 :: b3 :: rest => assemble b0 b1 b2 b3 :: chunks rest
  | _ => []

/-- The image that holds the given words, each least significant byte first (R26). -/
def imageOf (words : List Word) : List Byte :=
  match words with
  | [] => []
  | w :: rest => wordBytes w ++ imageOf rest

/-- The result of a run (R140): the list of texts, one per word of the image, each `decode` of its own word; an image that is not whole
words is refused (R27, ID7). -/
def listingOf (cfg : Config) (bytes : List Byte) : Except Refusal (List Text) :=
  if bytes.length % 4 = 0 then .ok ((chunks bytes).map (renders cfg)) else .error .imageNotWholeWords

/-- Start a run over an image (R139: nothing has to be initialised in the block): the image is in place and no text has been
collected. -/
def State.load (s : State) (bytes : List Byte) : State := { s with image := bytes, listing := [] }

end Sys2Proof.Machine
end

