-- ==== Sys2Proof/Safety.lean ====
section
/-! DEFINITION. What counts as a consistent state and as a safe run, in the terms the claims use. -/

namespace Sys2Proof.Machine

/-- "At every moment, including the first moment after power is applied, every output is the function of the present value of `word`"
(10_state.md R24): the outputs are the block's function of the word that is presented. -/
abbrev State.OutputsFollowWord (s : State) : Prop := s.out = blockOutputs s.cfg s.word

/-- The collaborator keeps R139 (a): the image that is left is whole words. -/
abbrev State.WholeImage (s : State) : Prop := s.image.length % 4 = 0

/-- Every text the collaborator has collected is the text of some word (R140). -/
def State.ListingRendered (s : State) : Prop := ∀ txt ∈ s.listing, ∃ w, txt = renders s.cfg w

/-- A run of `n` calls stops nowhere: it answers a state. -/
def RunsFor (n : Nat) (s : State) : Prop := ∃ t, Sys2Proof.core.run n s = .next t

end Sys2Proof.Machine
end

