-- ==== Sys2Proof/WellFormed.lean ====
section
/-! DEFINITION. Which terms of `Instr` a word can decode to: the immediates' forced zero bits (30_encoding.md R43 to R46). -/

namespace Sys2Proof

/-- R43, R45, R46 (b): bit 0 of a B- or J-immediate is constant 0. -/
def evenImm {n : Nat} (imm : BitVec n) : Bool := imm.getLsbD 0 == false

/-- R44, R46 (c): bits 11 to 0 of a U-immediate are constant 0. -/
def upperImm (imm : BitVec 32) : Bool := imm.extractLsb' 0 12 == 0

/-- The instruction is one a word can spell: its immediate has the bits its format forces to zero at zero. Every register index and
every other immediate value is accepted (R63, R74, R80, R90, R97, R101). -/
def Instr.wellFormed (i : Instr) : Bool :=
  match i with
  | .add _ _ _ => true
  | .sub _ _ _ => true
  | .sll _ _ _ => true
  | .slt _ _ _ => true
  | .sltu _ _ _ => true
  | .xor _ _ _ => true
  | .srl _ _ _ => true
  | .sra _ _ _ => true
  | .or _ _ _ => true
  | .and _ _ _ => true
  | .lb _ _ _ => true
  | .lh _ _ _ => true
  | .lw _ _ _ => true
  | .lbu _ _ _ => true
  | .lhu _ _ _ => true
  | .addi _ _ _ => true
  | .slti _ _ _ => true
  | .sltiu _ _ _ => true
  | .xori _ _ _ => true
  | .ori _ _ _ => true
  | .andi _ _ _ => true
  | .slli _ _ _ => true
  | .srli _ _ _ => true
  | .srai _ _ _ => true
  | .beq _ _ imm => evenImm imm
  | .bne _ _ imm => evenImm imm
  | .blt _ _ imm => evenImm imm
  | .bge _ _ imm => evenImm imm
  | .bltu _ _ imm => evenImm imm
  | .bgeu _ _ imm => evenImm imm
  | .sb _ _ _ => true
  | .sh _ _ _ => true
  | .sw _ _ _ => true
  | .lui _ imm => upperImm imm
  | .auipc _ imm => upperImm imm
  | .jal _ imm => evenImm imm
  | .jalr _ _ _ => true
  | .unknown => true

end Sys2Proof
end

