-- ==== Sys2Proof/Certificates/Slice0/Obligations.lean ====
section
/-! DEFINITION. The statements for the provers. Each says in its docstring which rules it formalises, and which of its clauses are a
decision of 92_eei_decisions.md or a choice of the model, with the log entry. A statement about every state holds for both values of both
parameters, which State carries, unless it names them. -/

namespace Sys2Proof.Claims

open Sys2Proof.Machine

/-- `str(p1, p2, ...)` (R7): the pieces in order, nothing added between them. -/
def str (pieces : List Text) : Text := pieces.flatten

/-- `m xA, xB, xC` (R117 `R`). -/
def rrrText (m : String) (a b c : RegIdx) : Text := str [m.toList, " ".toList, reg a, ", ".toList, reg b, ", ".toList, reg c]

/-- `m xA, v(xB)` (R117 `IMEM`, `S`). -/
def memText (m : String) (a : RegIdx) (v : Int) (b : RegIdx) : Text :=
  str [m.toList, " ".toList, reg a, ", ".toList, sdec v, "(".toList, reg b, ")".toList]

/-- `m xA, xB, v` (R117 `IARITH`, `B`). -/
def rrvText (m : String) (a b : RegIdx) (v : Int) : Text :=
  str [m.toList, " ".toList, reg a, ", ".toList, reg b, ", ".toList, sdec v]

/-- `m xA, v` (R117 `U`, `J`). -/
def rvText (m : String) (a : RegIdx) (v : Int) : Text := str [m.toList, " ".toList, reg a, ", ".toList, sdec v]

/-- `s` after a recognised instruction: the outputs R63, R74, R80, R90, R97, R102 to R105 drive, an absent immediate as `imm_valid = 0`
and `imm = 0`, the Field Set of the presented word, and the text read into the listing; nothing else changed. -/
def after (s : State) (k : Kind) (t : Template) (imm : Option (BitVec 32)) (txt : Text) : State :=
  { s with
    out := { fields := extractFields s.word, known := true, kind := k, tmpl := t, imm := imm.getD 0x00000000,
             immValid := imm.isSome, text := txt }
    listing := s.listing ++ [txt] }

/-- `s` after the unknown result (R106). -/
def afterUnknown (s : State) : State :=
  { s with
    out := { fields := extractFields s.word, known := false, kind := .unknown, tmpl := .NONE, imm := 0x00000000,
             immValid := false, text := "unknown instruction".toList }
    listing := s.listing ++ ["unknown instruction".toList] }

/-- A call that reads as the unknown result (R56): a next state, not recognised, with exactly the unknown text. -/
def readsUnknown (o : Host.Outcome State Fault Refusal) : Prop :=
  ∃ t, o = .next t ∧ t.out.known = false ∧ t.out.kind = .unknown ∧ t.out.text = "unknown instruction".toList

/-- Every word of a pattern of R58, presented in any state, drives the outputs of kind `k` (with that code), its immediate and text read
off the word. -/
def wordDrives (mask pattern : Word) (k : Kind) (code : Nat) (t : Template) (imm : Word → Option (BitVec 32))
    (txt : Word → Text) : Prop :=
  k.code.toNat = code ∧
  ∀ (s : State) (w : Word), w &&& mask = pattern → call w s = .next (after (s.present w) k t (imm w) (txt w))

/-- The examples of the rules: each word renders its text, with the parameters at R5's values. -/
def examplesRender (l : List (Word × String)) : Prop := ∀ p ∈ l, renders blockConfig p.1 = p.2.toList

/-- The bits R61 lists as ignored; with `R_PAIR_EXACT` false also the funct7 of `add` and `srl` (D8). -/
def ignoredBits (cfg : Config) (k : Kind) : Word :=
  if k ∈ [.sll, .slt, .sltu, .xor, .or, .and, .srai] then 0xFE000000
  else if k ∈ [.add, .srl] ∧ cfg.rPairExact = false then 0xFE000000
  else if k = .jalr then 0x00007000
  else 0x00000000

/-- R58's columns "kind" and "template", row by row. -/
def templateColumn : List (Kind × Template) :=
  (Kind.unknown, Template.NONE) ::
  (List.map (fun k : Kind => (k, Template.R)) [.add, .sub, .sll, .slt, .sltu, .xor, .srl, .sra, .or, .and] ++
   List.map (fun k : Kind => (k, Template.IMEM)) [.lb, .lh, .lw, .lbu, .lhu] ++
   List.map (fun k : Kind => (k, Template.IARITH)) [.addi, .slti, .sltiu, .xori, .ori, .andi, .slli, .srli, .srai] ++
   List.map (fun k : Kind => (k, Template.B)) [.beq, .bne, .blt, .bge, .bltu, .bgeu] ++
   List.map (fun k : Kind => (k, Template.S)) [.sb, .sh, .sw] ++
   List.map (fun k : Kind => (k, Template.U)) [.lui, .auipc] ++
   List.map (fun k : Kind => (k, Template.J)) [.jal] ++
   List.map (fun k : Kind => (k, Template.IMEM)) [.jalr])

/-- The value of a string of decimal digits, most significant first. -/
def decimalValue (t : Text) : Nat := t.foldl (fun a c => 10 * a + (c.toNat - 0x30)) 0

/-- The 41 characters of R111. -/
def alphabet : List Char := "abcdefghijklmnopqrstuvwxyz0123456789 ,-()".toList

/-- The table of R125. -/
def lengthBounds (cfg : Config) (t : Template) (n : Nat) : Prop :=
  match t with
  | .NONE => n = 19
  | .R => 13 ≤ n ∧ n ≤ 18
  | .IMEM => 12 ≤ n ∧ n ≤ 20
  | .IARITH => 13 ≤ n ∧ n ≤ 21
  | .B => 13 ≤ n ∧ n ≤ 20
  | .S => 12 ≤ n ∧ n ≤ 18
  | .U => 9 ≤ n ∧ n ≤ (if cfg.uRenderSigned then 22 else 21)
  | .J => 9 ≤ n ∧ n ≤ 17

end Sys2Proof.Claims

open Sys2Proof Sys2Proof.Machine

/-! ## Fields, sign extension, immediates (R20, R36 to R47) -/

/-- R36: the slices as masks and shifts, and the reassembly of the word. -/
def Obligations.FieldsAreTheSixSlices : Prop :=
  (∀ w : Word,
    ((extractFields w).opcode.toNat = w.toNat &&& 0x7F ∧
     (extractFields w).rd.toNat = (w.toNat >>> 7) &&& 0x1F ∧
     (extractFields w).funct3.toNat = (w.toNat >>> 12) &&& 0x7 ∧
     (extractFields w).rs1.toNat = (w.toNat >>> 15) &&& 0x1F ∧
     (extractFields w).rs2.toNat = (w.toNat >>> 20) &&& 0x1F ∧
     (extractFields w).funct7.toNat = (w.toNat >>> 25) &&& 0x7F) ∧
    w = (extractFields w).funct7 ++ (extractFields w).rs2 ++ (extractFields w).rs1 ++ (extractFields w).funct3 ++
      (extractFields w).rd ++ (extractFields w).opcode) ∧
  extractFields 0x00A00093 = { opcode := 0x13, rd := 1, funct3 := 0, rs1 := 0, rs2 := 10, funct7 := 0x00 }

/-- R20: the slices are driven for every input word, whether or not its format uses the field. -/
def Obligations.EveryCallDrivesTheFieldSet : Prop :=
  (∀ (s : State) (w : Word), ∃ t, call w s = .next t ∧
    t.out.fields.opcode = w.extractLsb' 0 7 ∧ t.out.fields.rd = w.extractLsb' 7 5 ∧ t.out.fields.funct3 = w.extractLsb' 12 3 ∧
    t.out.fields.rs1 = w.extractLsb' 15 5 ∧ t.out.fields.rs2 = w.extractLsb' 20 5 ∧ t.out.fields.funct7 = w.extractLsb' 25 7) ∧
  (∃ t, call 0x123452B7 State.reset = .next t ∧ t.out.kind = .lui ∧
    t.out.fields = { opcode := 0x37, rd := 5, funct3 := 5, rs1 := 8, rs2 := 3, funct7 := 0x09 })

/-- R38; that there is no value at width 0 and above 32 is decision D18 (log 8). -/
def Obligations.SignExtendIsTheSignedReading : Prop :=
  (∀ value bitWidth : Nat, 1 ≤ bitWidth → bitWidth ≤ 32 → ∃ r : Int, signExtend value bitWidth = some r ∧
    r = (if value % 2 ^ bitWidth < 2 ^ (bitWidth - 1) then ((value % 2 ^ bitWidth : Nat) : Int)
      else ((value % 2 ^ bitWidth : Nat) : Int) - 2 ^ bitWidth) ∧
    -(2 ^ (bitWidth - 1) : Int) ≤ r ∧ r < 2 ^ (bitWidth - 1)) ∧
  (∀ value bitWidth : Nat, bitWidth = 0 ∨ 32 < bitWidth → signExtend value bitWidth = none) ∧
  (∀ w : Word, signExtend (w.toNat >>> 20) 12 = some (immI w) ∧ signExtend (immSField w).toNat 12 = some (immS w) ∧
    signExtend (immBField w).toNat 13 = some (immB w) ∧ signExtend (immJField w).toNat 21 = some (immJ w))

/-- R39 (a) to (d). -/
def Obligations.SignExtendLaws : Prop :=
  (∀ (w : Nat) (v : Int), 1 ≤ w → w ≤ 32 → -(2 ^ (w - 1) : Int) ≤ v → v ≤ 2 ^ (w - 1) - 1 →
    signExtend (v % 2 ^ w).toNat w = some v) ∧
  signExtend 0x800 12 = some (-2048) ∧ signExtend 0x7FF 12 = some 2047 ∧ signExtend 0xFFFFF7FF 12 = some 2047 ∧
  (∀ a b w : Nat, a % 2 ^ w = b % 2 ^ w → signExtend a w = signExtend b w) ∧
  (∀ (value w : Nat) (r : Int), signExtend value w = some r → r % 2 ^ w = ((value % 2 ^ w : Nat) : Int))

/-- R41, R42, R43, R45: each immediate in all the forms its rule gives it. -/
def Obligations.ImmediatesGatherAndExtend : Prop :=
  (∀ w : Word,
    (immI w = (w.extractLsb 31 20).toInt ∧ signExtend (w.toNat >>> 20) 12 = some (immI w) ∧
      signExtend (gather [⟨31, 20, 0⟩] w) 12 = some (immI w) ∧
      -2048 ≤ immI w ∧ immI w ≤ 2047 ∧ (immI w < 0 ↔ w.getLsbD 31 = true)) ∧
    (immS w = (w.extractLsb 31 25 ++ w.extractLsb 11 7).toInt ∧
      immS w = ((extractFields w).funct7 ++ (extractFields w).rd).toInt ∧
      signExtend (gather [⟨31, 25, 5⟩, ⟨11, 7, 0⟩] w) 12 = some (immS w) ∧
      -2048 ≤ immS w ∧ immS w ≤ 2047 ∧ (immS w < 0 ↔ w.getLsbD 31 = true)) ∧
    (immB w = (w.extractLsb 31 31 ++ w.extractLsb 7 7 ++ w.extractLsb 30 25 ++ w.extractLsb 11 8 ++ 0#1).toInt ∧
      signExtend (gather [⟨31, 31, 12⟩, ⟨7, 7, 11⟩, ⟨30, 25, 5⟩, ⟨11, 8, 1⟩] w) 13 = some (immB w) ∧
      -4096 ≤ immB w ∧ immB w ≤ 4094 ∧ immB w % 2 = 0 ∧ (immB w < 0 ↔ w.getLsbD 31 = true)) ∧
    (immJ w = (w.extractLsb 31 31 ++ w.extractLsb 19 12 ++ w.extractLsb 20 20 ++ w.extractLsb 30 21 ++ 0#1).toInt ∧
      signExtend (gather [⟨31, 31, 20⟩, ⟨19, 12, 12⟩, ⟨20, 20, 11⟩, ⟨30, 21, 1⟩] w) 21 = some (immJ w) ∧
      -1048576 ≤ immJ w ∧ immJ w ≤ 1048574 ∧ immJ w % 2 = 0 ∧ (immJ w < 0 ↔ w.getLsbD 31 = true))) ∧
  (immI 0x00A00093 = 10 ∧ immI 0xFFF00093 = -1 ∧ immI 0x80000013 = -2048 ∧ immI 0x7FF00013 = 2047) ∧
  (immS 0x00A12423 = 8 ∧ immS 0xFEA12E23 = -4) ∧
  (immB 0x00000063 = 0 ∧ immB 0x00000463 = 8 ∧ immB 0xFE000EE3 = -4 ∧ immB 0x80000063 = -4096 ∧ immB 0x7E000FE3 = 4094 ∧
    immB 0x000000E3 = 2048) ∧
  (immJ 0x0000006F = 0 ∧ immJ 0x008000EF = 8 ∧ immJ 0xFF9FF0EF = -8 ∧ immJ 0x001000EF = 2048 ∧ immJ 0x000010EF = 4096 ∧
    immJ 0x800000EF = -1048576 ∧ immJ 0x7FFFF0EF = 1048574)

/-- R44, R119; which reading is printed is decision D7 (log 14). -/
def Obligations.UpperImmediateUnderBothReadings : Prop :=
  ∀ (w : Word) (exact : Bool),
    immUField w = w &&& 0xFFFFF000 ∧
    gather [⟨31, 12, 12⟩] w = (immUField w).toNat ∧
    immU ⟨true, exact⟩ w = (w &&& 0xFFFFF000).toInt ∧
    immU ⟨false, exact⟩ w = ((w &&& 0xFFFFF000).toNat : Int) ∧
    immU ⟨true, exact⟩ w % 4096 = 0 ∧ immU ⟨false, exact⟩ w % 4096 = 0 ∧
    -2147483648 ≤ immU ⟨true, exact⟩ w ∧ immU ⟨true, exact⟩ w ≤ 2147479552 ∧
    0 ≤ immU ⟨false, exact⟩ w ∧ immU ⟨false, exact⟩ w ≤ 4294963200 ∧
    (immU ⟨true, exact⟩ w < 0 ↔ w.getLsbD 31 = true) ∧
    immU ⟨false, exact⟩ w = immU ⟨true, exact⟩ w + (if w.getLsbD 31 then 2 ^ 32 else 0)

/-- R46 (f), the spec's own derivation. -/
def Obligations.GatherLayoutsUseEachBitOnce : Prop :=
  (∀ p ∈ [(gatherI, List.range' 0 12), (gatherS, List.range' 0 12), (gatherB, List.range' 1 12), (gatherU, List.range' 12 20),
      (gatherJ, List.range' 1 20)],
    (gatherSources p.1).Nodup ∧ (gatherTargets p.1).Perm p.2 ∧ (gatherSources p.1).length = (gatherTargets p.1).length) ∧
  (∀ g ∈ [gatherI, gatherS, gatherB, gatherU, gatherJ], ∀ w : Word, ∀ b ∈ gatherSources g,
    gather g (w ^^^ (1#32 <<< b)) ≠ gather g w)

/-- R47 (90_conflicts.md C3, C4), with the kind, the template and the shape of the text from R80 and R87 to R89. That funct3 1 selects slli is general knowledge (G2, log 9), that slli with a nonzero upper part is still slli is decision D11 (log 12), and that the imm output of srai is the masked value is decision D12 (log 17). -/
def Obligations.ShiftImmediatesAreMaskedForSraiOnly : Prop :=
  (∀ (s : State) (w : Word), w.extractLsb' 0 7 = 0x13 →
    (w.extractLsb' 12 3 = 1 →
      call w s = .next (Claims.after (s.present w) .slli .IARITH (some ((w.extractLsb' 20 12).signExtend 32))
        (Claims.rrvText "slli" (w.extractLsb' 7 5) (w.extractLsb' 15 5) (immI w)))) ∧
    (w.extractLsb' 12 3 = 5 → w.extractLsb' 25 7 = 0 →
      immI w = ((w.extractLsb' 20 5).toNat : Int) ∧
      call w s = .next (Claims.after (s.present w) .srli .IARITH (some ((w.extractLsb' 20 5).setWidth 32))
        (Claims.rrvText "srli" (w.extractLsb' 7 5) (w.extractLsb' 15 5) (immI w)))) ∧
    (w.extractLsb' 12 3 = 5 → w.extractLsb' 25 7 ≠ 0 →
      BitVec.ofInt 32 (immI w) &&& 0x1F = (w.extractLsb' 20 5).setWidth 32 ∧
      call w s = .next (Claims.after (s.present w) .srai .IARITH (some (BitVec.ofInt 32 (immI w) &&& 0x1F))
        (Claims.rrvText "srai" (w.extractLsb' 7 5) (w.extractLsb' 15 5) ((w.extractLsb' 20 5).toNat : Int))))) ∧
  renders blockConfig 0xFFF09093 = "slli x1, x1, -1".toList

/-! ## Encoding and dispatch (R40, R48 to R62, R106 to R109) -/

/-- The encoder is written from the layouts of R40 and the table of R58. -/
def Obligations.DecodeOfEncodeIsTheInstruction : Prop :=
  ∀ (i : Instr) (cfg : Config), i.wellFormed = true →
    decode cfg (encode i) = i ∧ ∀ rest : List Byte, decodeBytes cfg (wordBytes (encode i) ++ rest) = .ok (i, rest)

/-- R61 read with R40: no tested or printed bit is dropped. Which bits are ignored rests on decisions D8 to D11 (log 10 to 13). The encoder, and what it writes for an ignored bit, is the model's own (log 18). Recognised words only: an unknown word leaves no trace in the instruction (R106). -/
def Obligations.EncodeOfDecodeKeepsTheTestedBits : Prop :=
  ∀ (cfg : Config) (w : Word), dispatch cfg w ≠ .unknown →
    encode (decode cfg w) &&& ~~~(Claims.ignoredBits cfg (dispatch cfg w)) = w &&& ~~~(Claims.ignoredBits cfg (dispatch cfg w))

/-- R43 to R46: the forced zero bits. -/
def Obligations.DecodedInstructionsAreWellFormed : Prop :=
  ∀ (cfg : Config) (w : Word), (decode cfg w).wellFormed = true

/-- R58 and R62 against R48 to R56; both rest on G1 and G2 (log 9) and on decisions D8 to D11 (log 10 to 13). -/
def Obligations.DispatchFollowsTheOpcodeTable : Prop :=
  (∀ (cfg : Config) (w : Word), cfg.rPairExact = true → dispatch cfg w = tableKind w) ∧
  (∀ (cfg : Config) (r : TableRow) (w : Word), cfg.rPairExact = true → r ∈ recognisedRows →
    (r.holds w = true ↔ dispatch cfg w = r.kind))

/-- R57: the conditions are mutually exclusive, the spec's own derivation. -/
def Obligations.NoTwoRowsHoldOfOneWord : Prop :=
  recognisedRows.Nodup ∧ recognisedRows.length = 37 ∧
  ∀ (r q : TableRow) (w : Word), r ∈ recognisedRows → q ∈ recognisedRows → r.holds w = true → q.holds w = true → r = q

/-- R107, R109, R60, the spec's own derivations; sets U2 and U3 are decision D8 (log 13), that no other bit is tested decisions D9 to D11 (log 10 to 12). -/
def Obligations.UnknownWordsAreTheSixSets : Prop :=
  (∀ (cfg : Config) (w : Word), dispatch cfg w = .unknown ↔
    (w.extractLsb' 0 7 ∉ [0x33#7, 0x03#7, 0x13#7, 0x63#7, 0x23#7, 0x37#7, 0x17#7, 0x6F#7, 0x67#7]) ∨
    (cfg.rPairExact = true ∧ w.extractLsb' 0 7 = 0x33 ∧ w.extractLsb' 12 3 ∈ [0#3, 5#3] ∧ w.extractLsb' 25 7 ∉ [0x00#7, 0x20#7]) ∨
    (w.extractLsb' 0 7 = 0x03 ∧ w.extractLsb' 12 3 ∈ [3#3, 6#3, 7#3]) ∨
    (w.extractLsb' 0 7 = 0x63 ∧ w.extractLsb' 12 3 ∈ [2#3, 3#3]) ∨
    (w.extractLsb' 0 7 = 0x23 ∧ w.extractLsb' 12 3 ∈ [3#3, 4#3, 5#3, 6#3, 7#3])) ∧
  (∀ (cfg : Config) (w : Word), w.extractLsb' 0 2 ≠ 0b11 → dispatch cfg w = .unknown) ∧
  (∀ (cfg : Config) (w : Word), w.extractLsb' 0 7 ∈ [0x13#7, 0x37#7, 0x17#7, 0x6F#7, 0x67#7] → dispatch cfg w ≠ .unknown)

/-- The count check of R58 and the sizes of R107, the spec's own derivations from decisions D8 to D11 (log 10 to 13). -/
def Obligations.RecognisedWordCount : Prop :=
  Nat.card { w : Word // dispatch blockConfig w ≠ .unknown } = 251789312 ∧
  Nat.card { w : Word // dispatch blockConfig w = .unknown } = 4043177984

/-- Decision D8, both values (log 13). -/
def Obligations.PairParameterChangesOnlyItsWords : Prop :=
  ∀ (signed : Bool) (w : Word),
    (w.extractLsb' 0 7 = 0x33 ∧ w.extractLsb' 12 3 ∈ [0#3, 5#3] ∧ w.extractLsb' 25 7 ∉ [0x00#7, 0x20#7] →
      dispatch ⟨signed, true⟩ w = .unknown ∧
      dispatch ⟨signed, false⟩ w = if w.extractLsb' 12 3 = 0 then .add else .srl) ∧
    (¬ (w.extractLsb' 0 7 = 0x33 ∧ w.extractLsb' 12 3 ∈ [0#3, 5#3] ∧ w.extractLsb' 25 7 ∉ [0x00#7, 0x20#7]) →
      dispatch ⟨signed, true⟩ w = dispatch ⟨signed, false⟩ w)

/-- R61, the spec's own derivation; the ignored bits are decisions D8 to D11 (log 10 to 13). -/
def Obligations.IgnoredBitsHaveNoEffect : Prop :=
  (∀ (cfg : Config) (v w : Word), dispatch cfg v = dispatch cfg w →
    v &&& ~~~(Claims.ignoredBits cfg (dispatch cfg w)) = w &&& ~~~(Claims.ignoredBits cfg (dispatch cfg w)) →
    { blockOutputs cfg v with fields := extractFields w } = blockOutputs cfg w) ∧
  (∀ (cfg : Config) (v w : Word), cfg.rPairExact = true → dispatch cfg w ≠ .unknown → dispatch cfg w ≠ .srai →
    v &&& ~~~(Claims.ignoredBits cfg (dispatch cfg w)) = w &&& ~~~(Claims.ignoredBits cfg (dispatch cfg w)) →
    dispatch cfg v = dispatch cfg w) ∧
  (∀ (cfg : Config) (v w : Word), dispatch cfg w ≠ .unknown → renders cfg v = renders cfg w →
    v &&& ~~~(Claims.ignoredBits cfg (dispatch cfg w)) = w &&& ~~~(Claims.ignoredBits cfg (dispatch cfg w)))

/-- Words laid out by R40; expected operands from the rules' worked examples. That the jalr word's funct3 is ignored is decision D10 (log 11). -/
def Obligations.WrittenOutWordsDecode : Prop :=
  decode blockConfig 0b0100000_00010_00001_000_00011_0110011 = .sub 3 1 2 ∧
  decode blockConfig 0b111111111100_00010_010_00101_0000011 = .lw 5 0xFFC 2 ∧
  decode blockConfig 0b000000001010_00000_000_00001_0010011 = .addi 1 0 10 ∧
  decode blockConfig 0b0100000_00011_00001_101_00011_0010011 = .srai 3 1 3 ∧
  decode blockConfig 0b1_111111_00010_00001_110_1110_1_1100011 = .bltu 1 2 0x1FFC ∧
  decode blockConfig 0b0000001_01010_00010_010_00000_0100011 = .sw 10 32 2 ∧
  decode blockConfig 0b00010010001101000101_00101_0010111 = .auipc 5 0x12345000 ∧
  decode blockConfig 0b0_0000000001_0_00000000_00001_1101111 = .jal 1 2 ∧
  decode blockConfig 0b000000000100_00101_111_00001_1100111 = .jalr 1 4 5 ∧
  decode blockConfig 0b0000000_00000_00000_000_00000_0000000 = .unknown

/-! ## Calls, steps and runs (R9, R10, R24 to R28, R126, R139 to R143) -/

/-- One step is one call (R9); in image order by log 26. -/
def Obligations.StepRunsTheDecodedInstruction : Prop :=
  ∀ (s : State) (b0 b1 b2 b3 : Byte) (rest : List Byte) (i : Instr),
    s.image = b0 :: b1 :: b2 :: b3 :: rest → rest.length % 4 = 0 → decode s.cfg (b3 ++ b2 ++ b1 ++ b0) = i → i.wellFormed = true →
    step s = exec i { s with image := rest, word := b3 ++ b2 ++ b1 ++ b0 }

/-- R26 with its worked example. -/
def Obligations.AssemblyIsLittleEndian : Prop :=
  (∀ b0 b1 b2 b3 : Byte,
    assemble b0 b1 b2 b3 = b3 ++ b2 ++ b1 ++ b0 ∧
    (assemble b0 b1 b2 b3).extractLsb' 0 8 = b0 ∧ (assemble b0 b1 b2 b3).extractLsb' 8 8 = b1 ∧
    (assemble b0 b1 b2 b3).extractLsb' 16 8 = b2 ∧ (assemble b0 b1 b2 b3).extractLsb' 24 8 = b3 ∧
    wordBytes (assemble b0 b1 b2 b3) = [b0, b1, b2, b3]) ∧
  (∀ (w : Word) (rest : List Byte), takeWord (wordBytes w ++ rest) = some (w, rest)) ∧
  assemble 0x93 0x00 0xA0 0x00 = 0x00A00093 ∧ renders blockConfig 0x00A00093 = "addi x1, x0, 10".toList ∧
  assemble 0x00 0xA0 0x00 0x93 = 0x9300A000 ∧ opcodeOf 0x9300A000 = 0x00 ∧
  renders blockConfig 0x9300A000 = "unknown instruction".toList

/-- R27, R139 (a); that the model refuses is ID7 (log 6). -/
def Obligations.PartWordImageIsRefused : Prop :=
  (∀ s : State, s.image.length % 4 ≠ 0 → step s = .refused .imageNotWholeWords) ∧
  (∀ (cfg : Config) (bytes : List Byte), bytes.length % 4 ≠ 0 → listingOf cfg bytes = .error .imageNotWholeWords)

/-- The model's choice, log 5: R140 says that the block has no notion of the end of a run. -/
def Obligations.UsedUpImageChangesNothing : Prop :=
  ∀ s : State, s.image = [] → step s = .next s

/-- R126: no exception, every word maps to a rendered text or the unknown text, and every extension is total. The clause on step goes beyond R126: with an empty image the next state is the model's idle step (log 5), and the chunks are taken in image order (log 26). The last clause holds because Fault has no constructor (log 19). -/
def Obligations.NothingFaultsAndEveryWordAnswers : Prop :=
  (∀ (i : Instr) (s : State), ∃ t, exec i s = .next t) ∧
  (∀ (w : Word) (s : State), ∃ t, call w s = .next t ∧
    ((t.out.known = true ∧ t.out.kind ≠ .unknown ∧
        ∃ operands, operands ≠ [] ∧ t.out.text = t.out.kind.mnemonic ++ " ".toList ++ operands) ∨
     (t.out.known = false ∧ t.out.kind = .unknown ∧ t.out.text = "unknown instruction".toList))) ∧
  (∀ w : Word, (signExtend (gather gatherI w) 12).isSome = true ∧ (signExtend (gather gatherS w) 12).isSome = true ∧
    (signExtend (gather gatherB w) 13).isSome = true ∧ (signExtend (gather gatherJ w) 21).isSome = true) ∧
  (∀ s : State, s.WholeImage → ∃ t, step s = .next t) ∧
  (∀ (s : State) (f : Fault), step s ≠ .fault f)

/-- R10 to R17: there is no other state an instruction could change; R14: the parameters never change. -/
def Obligations.ExecLeavesTheRestUnchanged : Prop :=
  (∀ (i : Instr) (s t : State), exec i s = .next t →
    t.cfg = s.cfg ∧ t.image = s.image ∧ t.word = s.word ∧ t.listing = s.listing ++ [t.out.text] ∧
    t.out.fields = extractFields s.word) ∧
  (∀ (w : Word) (s t : State), call w s = .next t →
    t.cfg = s.cfg ∧ t.image = s.image ∧ t.word = w ∧ t.listing = s.listing ++ [t.out.text])

/-- INDEX.md: the whole model is decode of R48 followed by the formatter of R117. The meanings work from decoded operands; this claim says that nothing is lost on the way. The image and the listing are the model's own fields (log 1), and a step takes the chunks in image order (log 26). -/
def Obligations.StepIsTheBlockFunction : Prop :=
  (∀ (s : State) (b0 b1 b2 b3 : Byte) (rest : List Byte),
    s.image = b0 :: b1 :: b2 :: b3 :: rest → rest.length % 4 = 0 →
    step s = .next
      { s with
        image := rest
        word := b3 ++ b2 ++ b1 ++ b0
        out := blockOutputs s.cfg (b3 ++ b2 ++ b1 ++ b0)
        listing := s.listing ++ [renders s.cfg (b3 ++ b2 ++ b1 ++ b0)] }) ∧
  (∀ (s : State) (w : Word), call w s = .next
      { s with word := w, out := blockOutputs s.cfg w, listing := s.listing ++ [renders s.cfg w] })

/-- R24: at every moment every output is the function of the present word. -/
def Obligations.EveryStepKeepsOutputsFollowingTheWord : Prop :=
  (∀ s t : State, s.OutputsFollowWord → s.WholeImage → s.ListingRendered → step s = .next t →
    t.OutputsFollowWord ∧ t.WholeImage ∧ t.ListingRendered) ∧
  (∀ (w : Word) (s t : State), s.WholeImage → s.ListingRendered → call w s = .next t →
    t.OutputsFollowWord ∧ t.WholeImage ∧ t.ListingRendered)

/-- R24 and R5; the value of the undriven word is log 3, the empty image and listing log 1. -/
def Obligations.ResetMeetsTheInvariant : Prop :=
  State.reset.image = [] ∧ State.reset.listing = [] ∧ State.reset.cfg = { uRenderSigned := true, rPairExact := true } ∧
  State.reset.OutputsFollowWord ∧ State.reset.WholeImage ∧ State.reset.ListingRendered

/-- R10, R31, R142: no output for one word depends on any other word. -/
def Obligations.SameWordSameOutputs : Prop :=
  (∀ (w : Word) (r s r' s' : State), r.cfg = s.cfg → call w r = .next r' → call w s = .next s' → r'.out = s'.out) ∧
  (∀ (v w : Word) (s s1 s2 t1 t2 : State), call v s = .next s1 → call w s1 = .next s2 → call w s = .next t1 → call v t1 = .next t2 →
    s2.out = t1.out ∧ t2.out = s1.out)

/-- R140: one text per word, entry n of word n alone; the image and the listing are the model's own fields (log 1), and the steps take the chunks in image order (log 26). -/
def Obligations.RunListsOneTextPerWord : Prop :=
  (∀ s : State, s.WholeImage → ∃ t, Sys2Proof.core.run (s.image.length / 4) s = .next t ∧ t.image = [] ∧ t.cfg = s.cfg ∧
    t.listing = s.listing ++ (chunks s.image).map (renders s.cfg) ∧
    listingOf s.cfg s.image = .ok ((chunks s.image).map (renders s.cfg))) ∧
  (∀ bytes : List Byte, bytes.length % 4 = 0 → (chunks bytes).length = bytes.length / 4 ∧ imageOf (chunks bytes) = bytes) ∧
  (∀ words : List Word, chunks (imageOf words) = words ∧ (imageOf words).length = 4 * words.length)

/-- R31, R142 and what the programs of 95_test_vectors.md show. -/
def Obligations.PermutedImagePermutesTheListing : Prop :=
  (∀ (cfg : Config) (words words' : List Word), words.Perm words' →
    ∃ l l', listingOf cfg (imageOf words) = .ok l ∧ listingOf cfg (imageOf words') = .ok l' ∧ l.Perm l') ∧
  (∀ (cfg : Config) (words : List Word), ∃ l, listingOf cfg (imageOf words) = .ok l ∧
    listingOf cfg (imageOf words.reverse) = .ok l.reverse ∧ l.length = words.length ∧
    ∀ n : Nat, l[n]? = (words[n]?).map (renders cfg))

/-! ## What each instruction does: every constructor of Instr completes in every state (R63 to R106) -/

/-- R63 and the pseudocode of R64 to R73; the funct3 values that select them are general knowledge (G1, log 9), their funct7 D8 and D9. -/
def Obligations.RTypeInstructionsComplete : Prop :=
  ∀ (rd rs1 rs2 : RegIdx) (s : State),
    exec (.add rd rs1 rs2) s = .next (Claims.after s .add .R none (Claims.rrrText "add" rd rs1 rs2)) ∧
    exec (.sub rd rs1 rs2) s = .next (Claims.after s .sub .R none (Claims.rrrText "sub" rd rs1 rs2)) ∧
    exec (.sll rd rs1 rs2) s = .next (Claims.after s .sll .R none (Claims.rrrText "sll" rd rs1 rs2)) ∧
    exec (.slt rd rs1 rs2) s = .next (Claims.after s .slt .R none (Claims.rrrText "slt" rd rs1 rs2)) ∧
    exec (.sltu rd rs1 rs2) s = .next (Claims.after s .sltu .R none (Claims.rrrText "sltu" rd rs1 rs2)) ∧
    exec (.xor rd rs1 rs2) s = .next (Claims.after s .xor .R none (Claims.rrrText "xor" rd rs1 rs2)) ∧
    exec (.srl rd rs1 rs2) s = .next (Claims.after s .srl .R none (Claims.rrrText "srl" rd rs1 rs2)) ∧
    exec (.sra rd rs1 rs2) s = .next (Claims.after s .sra .R none (Claims.rrrText "sra" rd rs1 rs2)) ∧
    exec (.or rd rs1 rs2) s = .next (Claims.after s .or .R none (Claims.rrrText "or" rd rs1 rs2)) ∧
    exec (.and rd rs1 rs2) s = .next (Claims.after s .and .R none (Claims.rrrText "and" rd rs1 rs2))

/-- R74 and the pseudocode of R75 to R79. -/
def Obligations.LoadInstructionsComplete : Prop :=
  ∀ (rd rs1 : RegIdx) (imm : BitVec 12) (s : State),
    exec (.lb rd imm rs1) s = .next (Claims.after s .lb .IMEM (some (imm.signExtend 32)) (Claims.memText "lb" rd imm.toInt rs1)) ∧
    exec (.lh rd imm rs1) s = .next (Claims.after s .lh .IMEM (some (imm.signExtend 32)) (Claims.memText "lh" rd imm.toInt rs1)) ∧
    exec (.lw rd imm rs1) s = .next (Claims.after s .lw .IMEM (some (imm.signExtend 32)) (Claims.memText "lw" rd imm.toInt rs1)) ∧
    exec (.lbu rd imm rs1) s = .next (Claims.after s .lbu .IMEM (some (imm.signExtend 32)) (Claims.memText "lbu" rd imm.toInt rs1)) ∧
    exec (.lhu rd imm rs1) s = .next (Claims.after s .lhu .IMEM (some (imm.signExtend 32)) (Claims.memText "lhu" rd imm.toInt rs1))

/-- R80 and the pseudocode of R81 to R89. -/
def Obligations.ImmediateInstructionsComplete : Prop :=
  ∀ (rd rs1 : RegIdx) (imm : BitVec 12) (shamt : BitVec 5) (s : State),
    exec (.addi rd rs1 imm) s = .next (Claims.after s .addi .IARITH (some (imm.signExtend 32)) (Claims.rrvText "addi" rd rs1 imm.toInt)) ∧
    exec (.slti rd rs1 imm) s = .next (Claims.after s .slti .IARITH (some (imm.signExtend 32)) (Claims.rrvText "slti" rd rs1 imm.toInt)) ∧
    exec (.sltiu rd rs1 imm) s = .next (Claims.after s .sltiu .IARITH (some (imm.signExtend 32)) (Claims.rrvText "sltiu" rd rs1 imm.toInt)) ∧
    exec (.xori rd rs1 imm) s = .next (Claims.after s .xori .IARITH (some (imm.signExtend 32)) (Claims.rrvText "xori" rd rs1 imm.toInt)) ∧
    exec (.ori rd rs1 imm) s = .next (Claims.after s .ori .IARITH (some (imm.signExtend 32)) (Claims.rrvText "ori" rd rs1 imm.toInt)) ∧
    exec (.andi rd rs1 imm) s = .next (Claims.after s .andi .IARITH (some (imm.signExtend 32)) (Claims.rrvText "andi" rd rs1 imm.toInt)) ∧
    exec (.slli rd rs1 imm) s = .next (Claims.after s .slli .IARITH (some (imm.signExtend 32)) (Claims.rrvText "slli" rd rs1 imm.toInt)) ∧
    exec (.srli rd rs1 shamt) s =
      .next (Claims.after s .srli .IARITH (some (shamt.setWidth 32)) (Claims.rrvText "srli" rd rs1 (shamt.toNat : Int))) ∧
    exec (.srai rd rs1 shamt) s =
      .next (Claims.after s .srai .IARITH (some (shamt.setWidth 32)) (Claims.rrvText "srai" rd rs1 (shamt.toNat : Int)))

/-- R90 and the pseudocode of R91 to R96. -/
def Obligations.BranchInstructionsComplete : Prop :=
  ∀ (rs1 rs2 : RegIdx) (imm : BitVec 13) (s : State),
    exec (.beq rs1 rs2 imm) s = .next (Claims.after s .beq .B (some (imm.signExtend 32)) (Claims.rrvText "beq" rs1 rs2 imm.toInt)) ∧
    exec (.bne rs1 rs2 imm) s = .next (Claims.after s .bne .B (some (imm.signExtend 32)) (Claims.rrvText "bne" rs1 rs2 imm.toInt)) ∧
    exec (.blt rs1 rs2 imm) s = .next (Claims.after s .blt .B (some (imm.signExtend 32)) (Claims.rrvText "blt" rs1 rs2 imm.toInt)) ∧
    exec (.bge rs1 rs2 imm) s = .next (Claims.after s .bge .B (some (imm.signExtend 32)) (Claims.rrvText "bge" rs1 rs2 imm.toInt)) ∧
    exec (.bltu rs1 rs2 imm) s = .next (Claims.after s .bltu .B (some (imm.signExtend 32)) (Claims.rrvText "bltu" rs1 rs2 imm.toInt)) ∧
    exec (.bgeu rs1 rs2 imm) s = .next (Claims.after s .bgeu .B (some (imm.signExtend 32)) (Claims.rrvText "bgeu" rs1 rs2 imm.toInt))

/-- R97 and the pseudocode of R98 to R100. -/
def Obligations.StoreInstructionsComplete : Prop :=
  ∀ (rs1 rs2 : RegIdx) (imm : BitVec 12) (s : State),
    exec (.sb rs2 imm rs1) s = .next (Claims.after s .sb .S (some (imm.signExtend 32)) (Claims.memText "sb" rs2 imm.toInt rs1)) ∧
    exec (.sh rs2 imm rs1) s = .next (Claims.after s .sh .S (some (imm.signExtend 32)) (Claims.memText "sh" rs2 imm.toInt rs1)) ∧
    exec (.sw rs2 imm rs1) s = .next (Claims.after s .sw .S (some (imm.signExtend 32)) (Claims.memText "sw" rs2 imm.toInt rs1))

/-- The pseudocode of R102 to R105; the sign of a printed U-immediate is decision D7 (log 14). -/
def Obligations.UpperAndJumpInstructionsComplete : Prop :=
  (∀ (rd : RegIdx) (imm : BitVec 32) (s : State),
    exec (.lui rd imm) s =
      .next (Claims.after s .lui .U (some imm) (Claims.rvText "lui" rd (if s.cfg.uRenderSigned then imm.toInt else (imm.toNat : Int)))) ∧
    exec (.auipc rd imm) s =
      .next (Claims.after s .auipc .U (some imm) (Claims.rvText "auipc" rd (if s.cfg.uRenderSigned then imm.toInt else (imm.toNat : Int))))) ∧
  (∀ (rd : RegIdx) (imm : BitVec 21) (s : State),
    exec (.jal rd imm) s = .next (Claims.after s .jal .J (some (imm.signExtend 32)) (Claims.rvText "jal" rd imm.toInt))) ∧
  (∀ (rd rs1 : RegIdx) (imm : BitVec 12) (s : State),
    exec (.jalr rd imm rs1) s = .next (Claims.after s .jalr .IMEM (some (imm.signExtend 32)) (Claims.memText "jalr" rd imm.toInt rs1)))

/-- R106; imm and imm_valid are decision D4 (log 17). -/
def Obligations.UnknownResultCompletes : Prop :=
  ∀ s : State, exec .unknown s = .next (Claims.afterUnknown s) ∧ "unknown instruction".toList.length = 19

/-! ## What each word does: the patterns of R58 and the worked examples of the rules -/

/-- R63 to R73; the funct3 values of sll, slt, sltu, xor, or, and are general knowledge (G1, log 9), that they ignore funct7 is decision D9 (log 10), and the imm output of 0 is D4 (log 17). -/
def Obligations.RTypeWordsRender : Prop :=
  Template.R.code = 1 ∧
    Claims.wordDrives 0xFE00707F 0x00000033 .add 1 .R (fun _ => none)
      (fun w => Claims.rrrText "add" (w.extractLsb' 7 5) (w.extractLsb' 15 5) (w.extractLsb' 20 5)) ∧
    Claims.wordDrives 0xFE00707F 0x40000033 .sub 2 .R (fun _ => none)
      (fun w => Claims.rrrText "sub" (w.extractLsb' 7 5) (w.extractLsb' 15 5) (w.extractLsb' 20 5)) ∧
    Claims.wordDrives 0x0000707F 0x00001033 .sll 3 .R (fun _ => none)
      (fun w => Claims.rrrText "sll" (w.extractLsb' 7 5) (w.extractLsb' 15 5) (w.extractLsb' 20 5)) ∧
    Claims.wordDrives 0x0000707F 0x00002033 .slt 4 .R (fun _ => none)
      (fun w => Claims.rrrText "slt" (w.extractLsb' 7 5) (w.extractLsb' 15 5) (w.extractLsb' 20 5)) ∧
    Claims.wordDrives 0x0000707F 0x00003033 .sltu 5 .R (fun _ => none)
      (fun w => Claims.rrrText "sltu" (w.extractLsb' 7 5) (w.extractLsb' 15 5) (w.extractLsb' 20 5)) ∧
    Claims.wordDrives 0x0000707F 0x00004033 .xor 6 .R (fun _ => none)
      (fun w => Claims.rrrText "xor" (w.extractLsb' 7 5) (w.extractLsb' 15 5) (w.extractLsb' 20 5)) ∧
    Claims.wordDrives 0xFE00707F 0x00005033 .srl 7 .R (fun _ => none)
      (fun w => Claims.rrrText "srl" (w.extractLsb' 7 5) (w.extractLsb' 15 5) (w.extractLsb' 20 5)) ∧
    Claims.wordDrives 0xFE00707F 0x40005033 .sra 8 .R (fun _ => none)
      (fun w => Claims.rrrText "sra" (w.extractLsb' 7 5) (w.extractLsb' 15 5) (w.extractLsb' 20 5)) ∧
    Claims.wordDrives 0x0000707F 0x00006033 .or 9 .R (fun _ => none)
      (fun w => Claims.rrrText "or" (w.extractLsb' 7 5) (w.extractLsb' 15 5) (w.extractLsb' 20 5)) ∧
    Claims.wordDrives 0x0000707F 0x00007033 .and 10 .R (fun _ => none)
      (fun w => Claims.rrrText "and" (w.extractLsb' 7 5) (w.extractLsb' 15 5) (w.extractLsb' 20 5))

/-- R74 to R79 with their corner cases and worked examples; the codes are those the rules write (log 15). -/
def Obligations.LoadWordsRender : Prop :=
  Template.IMEM.code = 2 ∧
    Claims.wordDrives 0x0000707F 0x00000003 .lb 11 .IMEM (fun w => some (BitVec.ofInt 32 (immI w)))
      (fun w => Claims.memText "lb" (w.extractLsb' 7 5) (immI w) (w.extractLsb' 15 5)) ∧
    Claims.wordDrives 0x0000707F 0x00001003 .lh 12 .IMEM (fun w => some (BitVec.ofInt 32 (immI w)))
      (fun w => Claims.memText "lh" (w.extractLsb' 7 5) (immI w) (w.extractLsb' 15 5)) ∧
    Claims.wordDrives 0x0000707F 0x00002003 .lw 13 .IMEM (fun w => some (BitVec.ofInt 32 (immI w)))
      (fun w => Claims.memText "lw" (w.extractLsb' 7 5) (immI w) (w.extractLsb' 15 5)) ∧
    Claims.wordDrives 0x0000707F 0x00004003 .lbu 14 .IMEM (fun w => some (BitVec.ofInt 32 (immI w)))
      (fun w => Claims.memText "lbu" (w.extractLsb' 7 5) (immI w) (w.extractLsb' 15 5)) ∧
    Claims.wordDrives 0x0000707F 0x00005003 .lhu 15 .IMEM (fun w => some (BitVec.ofInt 32 (immI w)))
      (fun w => Claims.memText "lhu" (w.extractLsb' 7 5) (immI w) (w.extractLsb' 15 5)) ∧
  (∀ (s : State) (w : Word), w.extractLsb' 0 7 = 0x03 → w.extractLsb' 12 3 ∈ [3#3, 6#3, 7#3] →
    Claims.readsUnknown (call w s)) ∧
  Claims.examplesRender [
      (0x00813283, "unknown instruction"), (0x00816283, "unknown instruction"),
      (0x00817283, "unknown instruction"), (0xFFC10283, "lb x5, -4(x2)"), (0x800F8F83, "lb x31, -2048(x31)"),
      (0x7FF00003, "lb x0, 2047(x0)"), (0x00000003, "lb x0, 0(x0)"), (0x00810283, "lb x5, 8(x2)"),
      (0x00111283, "lh x5, 1(x2)"), (0x800F9F83, "lh x31, -2048(x31)"), (0x7FF01003, "lh x0, 2047(x0)"),
      (0x00811283, "lh x5, 8(x2)"), (0xFFC11283, "lh x5, -4(x2)"), (0x00312283, "lw x5, 3(x2)"),
      (0x800FAF83, "lw x31, -2048(x31)"), (0x7FF02003, "lw x0, 2047(x0)"), (0x00812283, "lw x5, 8(x2)"),
      (0xFFC12283, "lw x5, -4(x2)"), (0xFFC14283, "lbu x5, -4(x2)"), (0x800FCF83, "lbu x31, -2048(x31)"),
      (0x7FF04003, "lbu x0, 2047(x0)"), (0x00814283, "lbu x5, 8(x2)"), (0xFFC15283, "lhu x5, -4(x2)"),
      (0x800FDF83, "lhu x31, -2048(x31)"), (0x7FF05003, "lhu x0, 2047(x0)"), (0x00815283, "lhu x5, 8(x2)")]

/-- R80 to R89; the funct3 values of slti, sltiu, xori, ori, andi and slli are general knowledge (G2, log 9), slli with a nonzero upper part is decision D11 (log 12). -/
def Obligations.ImmediateWordsRender : Prop :=
  Template.IARITH.code = 3 ∧
    Claims.wordDrives 0x0000707F 0x00000013 .addi 16 .IARITH (fun w => some (BitVec.ofInt 32 (immI w)))
      (fun w => Claims.rrvText "addi" (w.extractLsb' 7 5) (w.extractLsb' 15 5) (immI w)) ∧
    Claims.wordDrives 0x0000707F 0x00002013 .slti 17 .IARITH (fun w => some (BitVec.ofInt 32 (immI w)))
      (fun w => Claims.rrvText "slti" (w.extractLsb' 7 5) (w.extractLsb' 15 5) (immI w)) ∧
    Claims.wordDrives 0x0000707F 0x00003013 .sltiu 18 .IARITH (fun w => some (BitVec.ofInt 32 (immI w)))
      (fun w => Claims.rrvText "sltiu" (w.extractLsb' 7 5) (w.extractLsb' 15 5) (immI w)) ∧
    Claims.wordDrives 0x0000707F 0x00004013 .xori 19 .IARITH (fun w => some (BitVec.ofInt 32 (immI w)))
      (fun w => Claims.rrvText "xori" (w.extractLsb' 7 5) (w.extractLsb' 15 5) (immI w)) ∧
    Claims.wordDrives 0x0000707F 0x00006013 .ori 20 .IARITH (fun w => some (BitVec.ofInt 32 (immI w)))
      (fun w => Claims.rrvText "ori" (w.extractLsb' 7 5) (w.extractLsb' 15 5) (immI w)) ∧
    Claims.wordDrives 0x0000707F 0x00007013 .andi 21 .IARITH (fun w => some (BitVec.ofInt 32 (immI w)))
      (fun w => Claims.rrvText "andi" (w.extractLsb' 7 5) (w.extractLsb' 15 5) (immI w)) ∧
    Claims.wordDrives 0x0000707F 0x00001013 .slli 22 .IARITH (fun w => some (BitVec.ofInt 32 (immI w)))
      (fun w => Claims.rrvText "slli" (w.extractLsb' 7 5) (w.extractLsb' 15 5) (immI w)) ∧
    Claims.wordDrives 0xFE00707F 0x00005013 .srli 23 .IARITH (fun w => some (BitVec.ofInt 32 (immI w)))
      (fun w => Claims.rrvText "srli" (w.extractLsb' 7 5) (w.extractLsb' 15 5) (immI w)) ∧
  Kind.code .srai = 24 ∧
  (∀ (s : State) (w : Word), w &&& 0x0000707F = 0x00005013 → w &&& 0xFE000000 ≠ 0 →
    call w s = .next (Claims.after (s.present w) .srai .IARITH (some ((w.extractLsb' 20 5).setWidth 32))
      (Claims.rrvText "srai" (w.extractLsb' 7 5) (w.extractLsb' 15 5) ((w.extractLsb' 20 5).toNat : Int))))

/-- R90 to R96 with their corner cases and worked examples; the codes are those the rules write (log 15). -/
def Obligations.BranchWordsRender : Prop :=
  Template.B.code = 4 ∧
    Claims.wordDrives 0x0000707F 0x00000063 .beq 25 .B (fun w => some (BitVec.ofInt 32 (immB w)))
      (fun w => Claims.rrvText "beq" (w.extractLsb' 15 5) (w.extractLsb' 20 5) (immB w)) ∧
    Claims.wordDrives 0x0000707F 0x00001063 .bne 26 .B (fun w => some (BitVec.ofInt 32 (immB w)))
      (fun w => Claims.rrvText "bne" (w.extractLsb' 15 5) (w.extractLsb' 20 5) (immB w)) ∧
    Claims.wordDrives 0x0000707F 0x00004063 .blt 27 .B (fun w => some (BitVec.ofInt 32 (immB w)))
      (fun w => Claims.rrvText "blt" (w.extractLsb' 15 5) (w.extractLsb' 20 5) (immB w)) ∧
    Claims.wordDrives 0x0000707F 0x00005063 .bge 28 .B (fun w => some (BitVec.ofInt 32 (immB w)))
      (fun w => Claims.rrvText "bge" (w.extractLsb' 15 5) (w.extractLsb' 20 5) (immB w)) ∧
    Claims.wordDrives 0x0000707F 0x00006063 .bltu 29 .B (fun w => some (BitVec.ofInt 32 (immB w)))
      (fun w => Claims.rrvText "bltu" (w.extractLsb' 15 5) (w.extractLsb' 20 5) (immB w)) ∧
    Claims.wordDrives 0x0000707F 0x00007063 .bgeu 30 .B (fun w => some (BitVec.ofInt 32 (immB w)))
      (fun w => Claims.rrvText "bgeu" (w.extractLsb' 15 5) (w.extractLsb' 20 5) (immB w)) ∧
  (∀ w : Word, -4096 ≤ immB w ∧ immB w ≤ 4094 ∧ immB w % 2 = 0) ∧
  (∀ (s : State) (w : Word), w.extractLsb' 0 7 = 0x63 → w.extractLsb' 12 3 ∈ [2#3, 3#3] →
    Claims.readsUnknown (call w s)) ∧
  Claims.examplesRender [
      (0x0020A463, "unknown instruction"), (0x0020B463, "unknown instruction"), (0x00000063, "beq x0, x0, 0"),
      (0xFE208EE3, "beq x1, x2, -4"), (0x81FF8063, "beq x31, x31, -4096"), (0x7E000FE3, "beq x0, x0, 4094"),
      (0x002080E3, "beq x1, x2, 2048"), (0xFE208FE3, "beq x1, x2, -2"), (0x00208463, "beq x1, x2, 8"),
      (0xFE209EE3, "bne x1, x2, -4"), (0x81FF9063, "bne x31, x31, -4096"), (0x7E001FE3, "bne x0, x0, 4094"),
      (0x00209463, "bne x1, x2, 8"), (0x0020C463, "blt x1, x2, 8"), (0x00114463, "blt x2, x1, 8"),
      (0xFE20CEE3, "blt x1, x2, -4"), (0x81FFC063, "blt x31, x31, -4096"), (0x7E004FE3, "blt x0, x0, 4094"),
      (0xFE20DEE3, "bge x1, x2, -4"), (0x81FFD063, "bge x31, x31, -4096"), (0x7E005FE3, "bge x0, x0, 4094"),
      (0x0020D463, "bge x1, x2, 8"), (0xFE20EEE3, "bltu x1, x2, -4"), (0x81FFE063, "bltu x31, x31, -4096"),
      (0x7E006FE3, "bltu x0, x0, 4094"), (0x0020E463, "bltu x1, x2, 8"), (0xFE20FEE3, "bgeu x1, x2, -4"),
      (0x81FFF063, "bgeu x31, x31, -4096"), (0x7E007FE3, "bgeu x0, x0, 4094"),
      (0x0020F0E3, "bgeu x1, x2, 2048"), (0x0020F463, "bgeu x1, x2, 8")]

/-- R97 to R100 with their corner cases and worked examples; the codes are those the rules write (log 15). -/
def Obligations.StoreWordsRender : Prop :=
  Template.S.code = 5 ∧
    Claims.wordDrives 0x0000707F 0x00000023 .sb 31 .S (fun w => some (BitVec.ofInt 32 (immS w)))
      (fun w => Claims.memText "sb" (w.extractLsb' 20 5) (immS w) (w.extractLsb' 15 5)) ∧
    Claims.wordDrives 0x0000707F 0x00001023 .sh 32 .S (fun w => some (BitVec.ofInt 32 (immS w)))
      (fun w => Claims.memText "sh" (w.extractLsb' 20 5) (immS w) (w.extractLsb' 15 5)) ∧
    Claims.wordDrives 0x0000707F 0x00002023 .sw 33 .S (fun w => some (BitVec.ofInt 32 (immS w)))
      (fun w => Claims.memText "sw" (w.extractLsb' 20 5) (immS w) (w.extractLsb' 15 5)) ∧
  (∀ (s : State) (w : Word), w.extractLsb' 0 7 = 0x23 → w.extractLsb' 12 3 ∈ [3#3, 4#3, 5#3, 6#3, 7#3] →
    Claims.readsUnknown (call w s)) ∧
  Claims.examplesRender [
      (0x00A13423, "unknown instruction"), (0x00A14423, "unknown instruction"),
      (0x00A15423, "unknown instruction"), (0x00A16423, "unknown instruction"),
      (0x00A17423, "unknown instruction"), (0xFEA10E23, "sb x10, -4(x2)"), (0x81FF8023, "sb x31, -2048(x31)"),
      (0x7E000FA3, "sb x0, 2047(x0)"), (0x00A10FA3, "sb x10, 31(x2)"), (0x02A10023, "sb x10, 32(x2)"),
      (0x00000023, "sb x0, 0(x0)"), (0x00A10423, "sb x10, 8(x2)"), (0xFEA11E23, "sh x10, -4(x2)"),
      (0x00A11FA3, "sh x10, 31(x2)"), (0x81FF9023, "sh x31, -2048(x31)"), (0x7E001FA3, "sh x0, 2047(x0)"),
      (0x00A11423, "sh x10, 8(x2)"), (0xFEA12E23, "sw x10, -4(x2)"), (0x81FFA023, "sw x31, -2048(x31)"),
      (0x7E002FA3, "sw x0, 2047(x0)"), (0x02A12023, "sw x10, 32(x2)"), (0x00A12423, "sw x10, 8(x2)")]

/-- R102, R103, R119; the printed sign is decision D7 (log 14). -/
def Obligations.UpperWordsRender : Prop :=
  Template.U.code = 6 ∧ Kind.code .lui = 34 ∧ Kind.code .auipc = 35 ∧
  (∀ (s : State) (w : Word), w &&& 0x0000007F = 0x00000037 →
    call w s = .next (Claims.after (s.present w) .lui .U (some (w &&& 0xFFFFF000)) (Claims.rvText "lui" (w.extractLsb' 7 5)
      (if s.cfg.uRenderSigned then (w &&& 0xFFFFF000).toInt else ((w &&& 0xFFFFF000).toNat : Int))))) ∧
  (∀ (s : State) (w : Word), w &&& 0x0000007F = 0x00000017 →
    call w s = .next (Claims.after (s.present w) .auipc .U (some (w &&& 0xFFFFF000)) (Claims.rvText "auipc" (w.extractLsb' 7 5)
      (if s.cfg.uRenderSigned then (w &&& 0xFFFFF000).toInt else ((w &&& 0xFFFFF000).toNat : Int))))) ∧
  (∀ (exact : Bool) (w : Word), w.extractLsb' 0 7 = 0x37 ∨ w.extractLsb' 0 7 = 0x17 →
    (renders ⟨true, exact⟩ w = renders ⟨false, exact⟩ w ↔ w.getLsbD 31 = false))

/-- R104 with its corner cases and worked example; the codes are those the rule writes (log 15). -/
def Obligations.JalWordsRender : Prop :=
  Template.J.code = 7 ∧
    Claims.wordDrives 0x0000007F 0x0000006F .jal 36 .J (fun w => some (BitVec.ofInt 32 (immJ w)))
      (fun w => Claims.rvText "jal" (w.extractLsb' 7 5) (immJ w)) ∧
  (∀ w : Word, -1048576 ≤ immJ w ∧ immJ w ≤ 1048574 ∧ immJ w % 2 = 0) ∧
  Claims.examplesRender [
      (0xFFFFF06F, "jal x0, -2"), (0x0000006F, "jal x0, 0"), (0xFF9FF0EF, "jal x1, -8"),
      (0x80000FEF, "jal x31, -1048576"), (0x7FFFFFEF, "jal x31, 1048574"), (0x001000EF, "jal x1, 2048"),
      (0x000010EF, "jal x1, 4096"), (0x7FE000EF, "jal x1, 2046"), (0x000FF0EF, "jal x1, 1044480"),
      (0x008000EF, "jal x1, 8")]

/-- R105; that funct3 is not tested is decision D10 (log 11). -/
def Obligations.JalrWordsRender : Prop :=
  Template.IMEM.code = 2 ∧
    Claims.wordDrives 0x0000007F 0x00000067 .jalr 37 .IMEM (fun w => some (BitVec.ofInt 32 (immI w)))
      (fun w => Claims.memText "jalr" (w.extractLsb' 7 5) (immI w) (w.extractLsb' 15 5)) ∧
  renders blockConfig 0x004280E7 = "jalr x1, 4(x5)".toList ∧ renders blockConfig 0x0042F0E7 = "jalr x1, 4(x5)".toList

/-- R106, R108 to R110; imm and imm_valid are decision D4 (log 17), the example words general knowledge (G5). -/
def Obligations.UnknownWordsRender : Prop :=
  Template.NONE.code = 0 ∧ Kind.code .unknown = 0 ∧
  (∀ (s : State) (w : Word), dispatch s.cfg w = .unknown → call w s = .next (Claims.afterUnknown (s.present w))) ∧
  (∀ (cfg : Config) (w : Word), w ∈ [0x00000000#32, 0xFFFFFFFF#32, 0x0FF0000F#32, 0x00000073#32, 0x00100073#32, 0x30001073#32,
      0x30200073#32, 0x10500073#32, 0x1000A2AF#32, 0x0000A007#32, 0x0000001B#32, 0x00010001#32] →
    renders cfg w = "unknown instruction".toList) ∧
  extractFields 0xFFFFFFFF = { opcode := 0x7F, rd := 31, funct3 := 7, rs1 := 31, rs2 := 31, funct7 := 0x7F }

/-! ## Ports and text (R21 to R23, R111 to R125) -/

/-- R21 to R23; the codes are decisions D2 and D3 (log 15), the imm of 0 decision D4 (log 17). -/
def Obligations.PortsFollowTheKind : Prop :=
  (∀ (i : Instr) (s t : State), exec i s = .next t →
    (t.out.known = true ↔ t.out.kind.code ≠ 0) ∧
    ((t.out.kind, t.out.tmpl) ∈ Claims.templateColumn) ∧
    (t.out.immValid = true ↔ t.out.tmpl ≠ .R ∧ t.out.tmpl ≠ .NONE) ∧
    (t.out.immValid = false → t.out.imm = 0x00000000)) ∧
  Claims.templateColumn.map (fun p => p.1.code.toNat) = List.range 38 ∧
  (∀ j k : Kind, j.code = k.code → j = k) ∧
  [Template.NONE, .R, .IMEM, .IARITH, .B, .S, .U, .J].map (fun t => t.code.toNat) = List.range 8

/-- R114; the form of a numeral is decision D6 (log 16). -/
def Obligations.DecimalNumerals : Prop :=
  ∀ n : Nat,
    udec n = (if n < 10 then [Char.ofNat (0x30 + n)] else udec (n / 10) ++ [Char.ofNat (0x30 + n % 10)]) ∧
    (∀ c ∈ udec n, '0' ≤ c ∧ c ≤ '9') ∧
    ((udec n).head? = some '0' → n = 0) ∧
    Claims.decimalValue (udec n) = n

/-- R115; the spelling of the sign is decision D6 (log 16). -/
def Obligations.SignedNumerals : Prop :=
  (∀ n : Nat, sdec (n : Int) = udec n) ∧ (∀ n : Nat, 0 < n → sdec (-(n : Int)) = '-' :: udec n) ∧
  (∀ i j : Int, sdec i = sdec j → i = j) ∧
  sdec 2047 = "2047".toList ∧ sdec (-2048) = "-2048".toList ∧ sdec (-1) = "-1".toList ∧ sdec 0 = "0".toList ∧
  sdec (-2147483648) = "-2147483648".toList

/-- R113. -/
def Obligations.RegisterNamesAreDecimal : Prop :=
  (∀ i : RegIdx, reg i = 'x' :: udec i.toNat ∧ (i.toNat < 10 → (reg i).length = 2) ∧ (10 ≤ i.toNat → (reg i).length = 3)) ∧
  (∀ i j : RegIdx, reg i = reg j → i = j) ∧
  reg 0 = "x0".toList ∧ reg 9 = "x9".toList ∧ reg 10 = "x10".toList ∧ reg 31 = "x31".toList

/-- R121, the spec's own derivation: no text can be read as two instructions. -/
def Obligations.TextsAreExact : Prop :=
  ∀ (cfg : Config) (v w : Word), renders cfg v = renders cfg w ↔ decode cfg v = decode cfg w

/-- R111; one ASCII byte per character is decision D5 (log 15). -/
def Obligations.TextsUseTheAlphabet : Prop :=
  (∀ (cfg : Config) (w : Word), ∀ c ∈ renders cfg w, c ∈ Claims.alphabet) ∧
  Claims.alphabet.length = 41 ∧ Claims.alphabet.Nodup ∧ ∀ c ∈ Claims.alphabet, c.toNat < 128

/-- R125, the spec's own derivation. -/
def Obligations.TextLengthsAreBounded : Prop :=
  (∀ (cfg : Config) (w : Word),
    Claims.lengthBounds cfg (blockOutputs cfg w).tmpl (renders cfg w).length ∧
    9 ≤ (renders cfg w).length ∧ (renders cfg w).length ≤ textMax cfg ∧
    (cfg.uRenderSigned = true → ((renders cfg w).length = 22 ↔
      w.extractLsb' 0 7 = 0x17 ∧ 10 ≤ (w.extractLsb' 7 5).toNat ∧ 0x80000 ≤ (w.extractLsb' 12 20).toNat ∧
      (w.extractLsb' 12 20).toNat ≤ 0xC4653))) ∧
  textMax ⟨true, true⟩ = 22 ∧ textMax ⟨false, true⟩ = 21 ∧
  (renders ⟨false, true⟩ 0xFFFFFF97).length = 21 ∧
  Claims.examplesRender [(0x00006033, "or x0, x0, x0"), (0x01FFBFB3, "sltu x31, x31, x31"), (0x00000003, "lb x0, 0(x0)"),
      (0x800F8FE7, "jalr x31, -2048(x31)"), (0x00006013, "ori x0, x0, 0"), (0x800FBF93, "sltiu x31, x31, -2048"),
      (0x00000063, "beq x0, x0, 0"), (0x81FFE063, "bltu x31, x31, -4096"), (0x00000023, "sb x0, 0(x0)"),
      (0x81FF8023, "sb x31, -2048(x31)"), (0x00000037, "lui x0, 0"), (0x80000F97, "auipc x31, -2147483648"),
      (0x0000006F, "jal x0, 0"), (0x80000FEF, "jal x31, -1048576")]

/-- R124 with its example; the packing is decision D5 (log 15). -/
def Obligations.TextPortPacksTheText : Prop :=
  (∀ (w : Word) (s t : State), call w s = .next t →
    t.textLenPort.toNat = t.out.text.length ∧
    (∀ j : Nat, j < textMax t.cfg →
      (∀ h : j < t.out.text.length, portByte t.textPort j = BitVec.ofNat 8 (t.out.text[j]).toNat ∧ (t.out.text[j]).toNat < 128) ∧
      (t.out.text.length ≤ j → portByte t.textPort j = 0x00))) ∧
  (∃ t, call 0x00A00093 State.reset = .next t ∧ t.textLenPort = 15 ∧
    (List.range 22).map (portByte t.textPort) = [0x61, 0x64, 0x64, 0x69, 0x20, 0x78, 0x31, 0x2C, 0x20, 0x78, 0x30, 0x2C, 0x20, 0x31,
      0x30, 0, 0, 0, 0, 0, 0, 0])
end

