-- ==== Sys2Proof/Laws/Decode.lean ====
section
/-! SUPPORT. Laws of the decoder and the encoder: the bits of each layout of R40, the slices and the immediates of an encoded word, the
kind each pattern dispatches to, and the assembly of a word from its bytes. -/

namespace Sys2Proof

/-! ## The bits of the encoder's layouts (R40), one lemma each -/

theorem getLsbD_rWord (f7 : BitVec 7) (rs2 rs1 : RegIdx) (f3 : BitVec 3) (rd : RegIdx) (op : BitVec 7) (i : Nat) :
    (rWord f7 rs2 rs1 f3 rd op).getLsbD i =
      if i < 7 then op.getLsbD i else if i < 12 then rd.getLsbD (i - 7) else if i < 15 then f3.getLsbD (i - 12) else if i < 20 then rs1.getLsbD (i - 15) else if i < 25 then rs2.getLsbD (i - 20) else f7.getLsbD (i - 25) := by
  unfold rWord
  show BitVec.getLsbD (w := 7 + 5 + 5 + 3 + 5 + 7) _ i = _
  simp only [BitVec.getLsbD_append, Nat.sub_sub]
  grind

theorem getLsbD_iWord (imm : BitVec 12) (rs1 : RegIdx) (f3 : BitVec 3) (rd : RegIdx) (op : BitVec 7) (i : Nat) :
    (iWord imm rs1 f3 rd op).getLsbD i =
      if i < 7 then op.getLsbD i else if i < 12 then rd.getLsbD (i - 7) else if i < 15 then f3.getLsbD (i - 12) else if i < 20 then rs1.getLsbD (i - 15) else imm.getLsbD (i - 20) := by
  unfold iWord
  show BitVec.getLsbD (w := 12 + 5 + 3 + 5 + 7) _ i = _
  simp only [BitVec.getLsbD_append, Nat.sub_sub]
  grind

theorem getLsbD_sWord (imm : BitVec 12) (rs2 rs1 : RegIdx) (f3 : BitVec 3) (op : BitVec 7) (i : Nat) :
    (sWord imm rs2 rs1 f3 op).getLsbD i =
      if i < 7 then op.getLsbD i else if i < 12 then (imm.extractLsb' 0 5).getLsbD (i - 7) else if i < 15 then f3.getLsbD (i - 12) else if i < 20 then rs1.getLsbD (i - 15) else if i < 25 then rs2.getLsbD (i - 20) else (imm.extractLsb' 5 7).getLsbD (i - 25) := by
  unfold sWord
  show BitVec.getLsbD (w := 7 + 5 + 5 + 3 + 5 + 7) _ i = _
  simp only [BitVec.getLsbD_append, Nat.sub_sub]
  grind

theorem getLsbD_bWord (imm : BitVec 13) (rs2 rs1 : RegIdx) (f3 : BitVec 3) (op : BitVec 7) (i : Nat) :
    (bWord imm rs2 rs1 f3 op).getLsbD i =
      if i < 7 then op.getLsbD i else if i < 8 then (imm.extractLsb' 11 1).getLsbD (i - 7) else if i < 12 then (imm.extractLsb' 1 4).getLsbD (i - 8) else if i < 15 then f3.getLsbD (i - 12) else if i < 20 then rs1.getLsbD (i - 15) else if i < 25 then rs2.getLsbD (i - 20) else if i < 31 then (imm.extractLsb' 5 6).getLsbD (i - 25) else (imm.extractLsb' 12 1).getLsbD (i - 31) := by
  unfold bWord
  show BitVec.getLsbD (w := 1 + 6 + 5 + 5 + 3 + 4 + 1 + 7) _ i = _
  simp only [BitVec.getLsbD_append, Nat.sub_sub]
  grind

theorem getLsbD_uWord (imm : BitVec 32) (rd : RegIdx) (op : BitVec 7) (i : Nat) :
    (uWord imm rd op).getLsbD i =
      if i < 7 then op.getLsbD i else if i < 12 then rd.getLsbD (i - 7) else (imm.extractLsb' 12 20).getLsbD (i - 12) := by
  unfold uWord
  show BitVec.getLsbD (w := 20 + 5 + 7) _ i = _
  simp only [BitVec.getLsbD_append, Nat.sub_sub]
  grind

theorem getLsbD_jWord (imm : BitVec 21) (rd : RegIdx) (op : BitVec 7) (i : Nat) :
    (jWord imm rd op).getLsbD i =
      if i < 7 then op.getLsbD i else if i < 12 then rd.getLsbD (i - 7) else if i < 20 then (imm.extractLsb' 12 8).getLsbD (i - 12) else if i < 21 then (imm.extractLsb' 11 1).getLsbD (i - 20) else if i < 31 then (imm.extractLsb' 1 10).getLsbD (i - 21) else (imm.extractLsb' 20 1).getLsbD (i - 31) := by
  unfold jWord
  show BitVec.getLsbD (w := 1 + 10 + 1 + 8 + 5 + 7) _ i = _
  simp only [BitVec.getLsbD_append, Nat.sub_sub]
  grind

/-! ## The slices of an encoded word -/

section
variable (f7 : BitVec 7) (rs2 rs1 : RegIdx) (f3 : BitVec 3) (rd : RegIdx) (op : BitVec 7)

@[simp] theorem opcodeOf_rWord : opcodeOf (rWord f7 rs2 rs1 f3 rd op) = op := by
  ext i hi; simp [opcodeOf, getLsbD_rWord]; grind
@[simp] theorem rdOf_rWord : rdOf (rWord f7 rs2 rs1 f3 rd op) = rd := by
  ext i hi; simp [rdOf, getLsbD_rWord]; grind
@[simp] theorem funct3Of_rWord : funct3Of (rWord f7 rs2 rs1 f3 rd op) = f3 := by
  ext i hi; simp [funct3Of, getLsbD_rWord]; grind
@[simp] theorem rs1Of_rWord : rs1Of (rWord f7 rs2 rs1 f3 rd op) = rs1 := by
  ext i hi; simp [rs1Of, getLsbD_rWord]; grind
@[simp] theorem rs2Of_rWord : rs2Of (rWord f7 rs2 rs1 f3 rd op) = rs2 := by
  ext i hi; simp [rs2Of, getLsbD_rWord]; grind
@[simp] theorem funct7Of_rWord : funct7Of (rWord f7 rs2 rs1 f3 rd op) = f7 := by
  ext i hi; simp [funct7Of, getLsbD_rWord]; grind

end

section
variable (imm : BitVec 12) (rs1 : RegIdx) (f3 : BitVec 3) (rd : RegIdx) (op : BitVec 7)

@[simp] theorem opcodeOf_iWord : opcodeOf (iWord imm rs1 f3 rd op) = op := by
  ext i hi; simp [opcodeOf, getLsbD_iWord]; grind
@[simp] theorem rdOf_iWord : rdOf (iWord imm rs1 f3 rd op) = rd := by
  ext i hi; simp [rdOf, getLsbD_iWord]; grind
@[simp] theorem funct3Of_iWord : funct3Of (iWord imm rs1 f3 rd op) = f3 := by
  ext i hi; simp [funct3Of, getLsbD_iWord]; grind
@[simp] theorem rs1Of_iWord : rs1Of (iWord imm rs1 f3 rd op) = rs1 := by
  ext i hi; simp [rs1Of, getLsbD_iWord]; grind
@[simp] theorem immIField_iWord : immIField (iWord imm rs1 f3 rd op) = imm := by
  ext i hi; simp [immIField, getLsbD_iWord]; grind

end

section
variable (imm : BitVec 12) (rs2 rs1 : RegIdx) (f3 : BitVec 3) (op : BitVec 7)

@[simp] theorem opcodeOf_sWord : opcodeOf (sWord imm rs2 rs1 f3 op) = op := by
  ext i hi; simp [opcodeOf, getLsbD_sWord]; grind
@[simp] theorem funct3Of_sWord : funct3Of (sWord imm rs2 rs1 f3 op) = f3 := by
  ext i hi; simp [funct3Of, getLsbD_sWord]; grind
@[simp] theorem rs1Of_sWord : rs1Of (sWord imm rs2 rs1 f3 op) = rs1 := by
  ext i hi; simp [rs1Of, getLsbD_sWord]; grind
@[simp] theorem rs2Of_sWord : rs2Of (sWord imm rs2 rs1 f3 op) = rs2 := by
  ext i hi; simp [rs2Of, getLsbD_sWord]; grind

end

section
variable (imm : BitVec 13) (rs2 rs1 : RegIdx) (f3 : BitVec 3) (op : BitVec 7)

@[simp] theorem opcodeOf_bWord : opcodeOf (bWord imm rs2 rs1 f3 op) = op := by
  ext i hi; simp [opcodeOf, getLsbD_bWord]; grind
@[simp] theorem funct3Of_bWord : funct3Of (bWord imm rs2 rs1 f3 op) = f3 := by
  ext i hi; simp [funct3Of, getLsbD_bWord]; grind
@[simp] theorem rs1Of_bWord : rs1Of (bWord imm rs2 rs1 f3 op) = rs1 := by
  ext i hi; simp [rs1Of, getLsbD_bWord]; grind
@[simp] theorem rs2Of_bWord : rs2Of (bWord imm rs2 rs1 f3 op) = rs2 := by
  ext i hi; simp [rs2Of, getLsbD_bWord]; grind

end

section
variable (imm : BitVec 32) (rd : RegIdx) (op : BitVec 7)

@[simp] theorem opcodeOf_uWord : opcodeOf (uWord imm rd op) = op := by
  ext i hi; simp [opcodeOf, getLsbD_uWord]; grind
@[simp] theorem rdOf_uWord : rdOf (uWord imm rd op) = rd := by
  ext i hi; simp [rdOf, getLsbD_uWord]; grind

end

section
variable (imm : BitVec 21) (rd : RegIdx) (op : BitVec 7)

@[simp] theorem opcodeOf_jWord : opcodeOf (jWord imm rd op) = op := by
  ext i hi; simp [opcodeOf, getLsbD_jWord]; grind
@[simp] theorem rdOf_jWord : rdOf (jWord imm rd op) = rd := by
  ext i hi; simp [rdOf, getLsbD_jWord]; grind

end

/-! ## The gathered immediates, bit by bit, and those of an encoded word -/

theorem getLsbD_immSField (w : Word) (i : Nat) :
    (immSField w).getLsbD i = if i < 5 then w.getLsbD (i + 7) else if i < 12 then w.getLsbD (i + 20) else false := by
  unfold immSField
  show BitVec.getLsbD (w := 7 + 5) _ i = _
  simp only [BitVec.getLsbD_append, BitVec.getLsbD_extractLsb']
  grind

theorem getLsbD_immBField (w : Word) (i : Nat) :
    (immBField w).getLsbD i =
      if i = 0 then false else if i < 5 then w.getLsbD (i + 7) else if i < 11 then w.getLsbD (i + 20)
      else if i = 11 then w.getLsbD 7 else if i = 12 then w.getLsbD 31 else false := by
  unfold immBField
  show BitVec.getLsbD (w := 1 + 1 + 6 + 4 + 1) _ i = _
  simp only [BitVec.getLsbD_append, BitVec.getLsbD_extractLsb', Nat.sub_sub]
  grind

theorem getLsbD_immUField (w : Word) (i : Nat) :
    (immUField w).getLsbD i = (decide (12 ≤ i) && w.getLsbD i) := by
  unfold immUField
  show BitVec.getLsbD (w := 20 + 12) _ i = _
  simp only [BitVec.getLsbD_append, BitVec.getLsbD_extractLsb']
  grind

theorem getLsbD_immJField (w : Word) (i : Nat) :
    (immJField w).getLsbD i =
      if i = 0 then false else if i < 11 then w.getLsbD (i + 20) else if i = 11 then w.getLsbD 20
      else if i < 20 then w.getLsbD i else if i = 20 then w.getLsbD 31 else false := by
  unfold immJField
  show BitVec.getLsbD (w := 1 + 8 + 1 + 10 + 1) _ i = _
  simp only [BitVec.getLsbD_append, BitVec.getLsbD_extractLsb', Nat.sub_sub]
  grind

/-- An even immediate has bit 0 clear. -/
theorem getLsbD_zero_of_evenImm {n : Nat} {imm : BitVec n} (h : evenImm imm = true) : imm.getLsbD 0 = false := by
  simpa [evenImm] using h

/-- An upper immediate has its low 12 bits clear. -/
theorem getLsbD_of_upperImm {imm : BitVec 32} (h : upperImm imm = true) (i : Nat) (hi : i < 12) : imm.getLsbD i = false := by
  have h' : imm.extractLsb' 0 12 = 0#12 := by simpa [upperImm] using h
  have := congrArg (fun v => v.getLsbD i) h'
  simpa [hi] using this

@[simp] theorem immSField_sWord (imm : BitVec 12) (rs2 rs1 : RegIdx) (f3 : BitVec 3) (op : BitVec 7) :
    immSField (sWord imm rs2 rs1 f3 op) = imm := by
  apply BitVec.eq_of_getLsbD_eq; intro i hi
  simp only [getLsbD_immSField, getLsbD_sWord, BitVec.getLsbD_extractLsb']; grind

@[simp] theorem immBField_bWord (imm : BitVec 13) (rs2 rs1 : RegIdx) (f3 : BitVec 3) (op : BitVec 7) (h : evenImm imm = true) :
    immBField (bWord imm rs2 rs1 f3 op) = imm := by
  apply BitVec.eq_of_getLsbD_eq; intro i hi
  have h0 := getLsbD_zero_of_evenImm h
  simp only [getLsbD_immBField, getLsbD_bWord, BitVec.getLsbD_extractLsb']; grind

@[simp] theorem immUField_uWord (imm : BitVec 32) (rd : RegIdx) (op : BitVec 7) (h : upperImm imm = true) :
    immUField (uWord imm rd op) = imm := by
  apply BitVec.eq_of_getLsbD_eq; intro i hi
  have h0 := getLsbD_of_upperImm h i
  simp only [getLsbD_immUField, getLsbD_uWord, BitVec.getLsbD_extractLsb']; grind

@[simp] theorem immJField_jWord (imm : BitVec 21) (rd : RegIdx) (op : BitVec 7) (h : evenImm imm = true) :
    immJField (jWord imm rd op) = imm := by
  apply BitVec.eq_of_getLsbD_eq; intro i hi
  have h0 := getLsbD_zero_of_evenImm h
  simp only [getLsbD_immJField, getLsbD_jWord, BitVec.getLsbD_extractLsb']; grind

/-! ## The dispatch as a function of three slices (R48) -/

/-- The dispatch looks at the opcode, funct3 and `word[31:25]` alone; known values of them can be put in. -/
theorem dispatch_of_fields {cfg : Config} {w : Word} {op : BitVec 7} {f3 : BitVec 3} {f7 : BitVec 7}
    (h0 : opcodeOf w = op) (h3 : funct3Of w = f3) (h7 : funct7Of w = f7) :
    dispatch cfg w =
      (if op = 0x33 then dispatchR cfg f3 f7
      else if op = 0x03 then dispatchLoad f3
      else if op = 0x13 then dispatchOpImm f3 f7
      else if op = 0x63 then dispatchBranch f3
      else if op = 0x23 then dispatchStore f3
      else if op = 0x37 then .lui
      else if op = 0x17 then .auipc
      else if op = 0x6F then .jal
      else if op = 0x67 then .jalr
      else .unknown) := by
  subst h0 h3 h7
  rfl

@[simp] theorem opcodeOf_and (v w : Word) : opcodeOf (v &&& w) = opcodeOf v &&& opcodeOf w := by simp [opcodeOf, BitVec.extractLsb'_and]

@[simp] theorem funct3Of_and (v w : Word) : funct3Of (v &&& w) = funct3Of v &&& funct3Of w := by simp [funct3Of, BitVec.extractLsb'_and]

@[simp] theorem funct7Of_and (v w : Word) : funct7Of (v &&& w) = funct7Of v &&& funct7Of w := by simp [funct7Of, BitVec.extractLsb'_and]

/-! ## Bytes and words (R26) -/

theorem getLsbD_assemble (b0 b1 b2 b3 : Byte) (i : Nat) :
    (assemble b0 b1 b2 b3).getLsbD i =
      if i < 8 then b0.getLsbD i else if i < 16 then b1.getLsbD (i - 8) else if i < 24 then b2.getLsbD (i - 16)
      else b3.getLsbD (i - 24) := by
  unfold assemble
  show BitVec.getLsbD (w := 8 + 8 + 8 + 8) _ i = _
  simp only [BitVec.getLsbD_append, Nat.sub_sub]
  grind

/-- A word is assembled from the bytes it is laid out in. -/
@[simp] theorem assemble_wordBytes (w : Word) :
    assemble (w.extractLsb' 0 8) (w.extractLsb' 8 8) (w.extractLsb' 16 8) (w.extractLsb' 24 8) = w := by
  apply BitVec.eq_of_getLsbD_eq; intro i hi
  simp only [getLsbD_assemble, BitVec.getLsbD_extractLsb']; grind

@[simp] theorem takeWord_wordBytes_append (w : Word) (rest : List Byte) : takeWord (wordBytes w ++ rest) = some (w, rest) := by
  simp [takeWord, wordBytes]

@[simp] theorem length_wordBytes (w : Word) : (wordBytes w).length = 4 := rfl

@[simp] theorem takeWord_nil : takeWord [] = none := rfl

@[simp] theorem takeWord_cons (b0 b1 b2 b3 : Byte) (rest : List Byte) :
    takeWord (b0 :: b1 :: b2 :: b3 :: rest) = some (assemble b0 b1 b2 b3, rest) := rfl

/-- What a chunk that was taken says of the bytes it was taken from. -/
theorem takeWord_eq_some {bytes rest : List Byte} {w : Word} (h : takeWord bytes = some (w, rest)) :
    ∃ b0 b1 b2 b3, bytes = b0 :: b1 :: b2 :: b3 :: rest ∧ w = assemble b0 b1 b2 b3 := by
  unfold takeWord at h
  split at h
  · cases h; exact ⟨_, _, _, _, rfl, rfl⟩
  · cases h

/-- Of whole words, no chunk is taken only when there is none. -/
theorem takeWord_eq_none {bytes : List Byte} (hw : bytes.length % 4 = 0) (h : takeWord bytes = none) : bytes = [] := by
  match bytes, hw, h with
  | [], _, _ => rfl
  | [_], hw, _ => simp at hw
  | [_, _], hw, _ => simp at hw
  | [_, _, _], hw, _ => simp at hw

end Sys2Proof
end

