-- ==== Sys2Proof/Laws/State.lean ====
section
/-! SUPPORT. What each update of `State` does to each field. -/

namespace Sys2Proof.Machine

@[simp] theorem State.present_cfg (s : State) (w : Word) : (s.present w).cfg = s.cfg := rfl
@[simp] theorem State.present_image (s : State) (w : Word) : (s.present w).image = s.image := rfl
@[simp] theorem State.present_word (s : State) (w : Word) : (s.present w).word = w := rfl
@[simp] theorem State.present_out (s : State) (w : Word) : (s.present w).out = s.out := rfl
@[simp] theorem State.present_listing (s : State) (w : Word) : (s.present w).listing = s.listing := rfl

@[simp] theorem State.withRest_cfg (s : State) (rest : List Byte) : (s.withRest rest).cfg = s.cfg := rfl
@[simp] theorem State.withRest_image (s : State) (rest : List Byte) : (s.withRest rest).image = rest := rfl
@[simp] theorem State.withRest_word (s : State) (rest : List Byte) : (s.withRest rest).word = s.word := rfl
@[simp] theorem State.withRest_out (s : State) (rest : List Byte) : (s.withRest rest).out = s.out := rfl
@[simp] theorem State.withRest_listing (s : State) (rest : List Byte) : (s.withRest rest).listing = s.listing := rfl

@[simp] theorem State.load_cfg (s : State) (bytes : List Byte) : (s.load bytes).cfg = s.cfg := rfl
@[simp] theorem State.load_image (s : State) (bytes : List Byte) : (s.load bytes).image = bytes := rfl
@[simp] theorem State.load_word (s : State) (bytes : List Byte) : (s.load bytes).word = s.word := rfl
@[simp] theorem State.load_out (s : State) (bytes : List Byte) : (s.load bytes).out = s.out := rfl
@[simp] theorem State.load_listing (s : State) (bytes : List Byte) : (s.load bytes).listing = [] := rfl

@[simp] theorem State.withFetchWord_cfg (s : State) (nbits w : Nat) : (s.withFetchWord nbits w).cfg = s.cfg := rfl
@[simp] theorem State.withFetchWord_image (s : State) (nbits w : Nat) : (s.withFetchWord nbits w).image = wordBytes (BitVec.ofNat 32 (w % 2 ^ nbits)) ++ wholeWords (s.image.drop 4) := rfl
@[simp] theorem State.withFetchWord_word (s : State) (nbits w : Nat) : (s.withFetchWord nbits w).word = s.word := rfl
@[simp] theorem State.withFetchWord_out (s : State) (nbits w : Nat) : (s.withFetchWord nbits w).out = s.out := rfl
@[simp] theorem State.withFetchWord_listing (s : State) (nbits w : Nat) : (s.withFetchWord nbits w).listing = s.listing := rfl

@[simp] theorem drive_cfg (k : Kind) (t : Template) (v : Option Int) (txt : Text) (s : State) :
    (drive k t v txt s).cfg = s.cfg := rfl
@[simp] theorem drive_image (k : Kind) (t : Template) (v : Option Int) (txt : Text) (s : State) :
    (drive k t v txt s).image = s.image := rfl
@[simp] theorem drive_word (k : Kind) (t : Template) (v : Option Int) (txt : Text) (s : State) :
    (drive k t v txt s).word = s.word := rfl
@[simp] theorem drive_listing (k : Kind) (t : Template) (v : Option Int) (txt : Text) (s : State) :
    (drive k t v txt s).listing = s.listing ++ [txt] := rfl
@[simp] theorem drive_out_fields (k : Kind) (t : Template) (v : Option Int) (txt : Text) (s : State) :
    (drive k t v txt s).out.fields = extractFields s.word := rfl
@[simp] theorem drive_out_known (k : Kind) (t : Template) (v : Option Int) (txt : Text) (s : State) :
    (drive k t v txt s).out.known = knownOf k := rfl
@[simp] theorem drive_out_kind (k : Kind) (t : Template) (v : Option Int) (txt : Text) (s : State) :
    (drive k t v txt s).out.kind = k := rfl
@[simp] theorem drive_out_tmpl (k : Kind) (t : Template) (v : Option Int) (txt : Text) (s : State) :
    (drive k t v txt s).out.tmpl = t := rfl
@[simp] theorem drive_out_imm (k : Kind) (t : Template) (v : Option Int) (txt : Text) (s : State) :
    (drive k t v txt s).out.imm = immPortOf v := rfl
@[simp] theorem drive_out_immValid (k : Kind) (t : Template) (v : Option Int) (txt : Text) (s : State) :
    (drive k t v txt s).out.immValid = immValidOf v := rfl
@[simp] theorem drive_out_text (k : Kind) (t : Template) (v : Option Int) (txt : Text) (s : State) :
    (drive k t v txt s).out.text = txt := rfl

end Sys2Proof.Machine
end

