-- ==== Sys2Proof/Laws/Exec.lean ====
section
/-! SUPPORT. What `exec` does, said once for all instructions: it drives the outputs by the instruction's kind, template, printed immediate
and text, and stops nowhere. -/

namespace Sys2Proof.Machine

/-- The kind of a decoded instruction. -/
def instrKind (i : Instr) : Kind :=
  match i with
  | .add _ _ _ => .add
  | .sub _ _ _ => .sub
  | .sll _ _ _ => .sll
  | .slt _ _ _ => .slt
  | .sltu _ _ _ => .sltu
  | .xor _ _ _ => .xor
  | .srl _ _ _ => .srl
  | .sra _ _ _ => .sra
  | .or _ _ _ => .or
  | .and _ _ _ => .and
  | .lb _ _ _ => .lb
  | .lh _ _ _ => .lh
  | .lw _ _ _ => .lw
  | .lbu _ _ _ => .lbu
  | .lhu _ _ _ => .lhu
  | .addi _ _ _ => .addi
  | .slti _ _ _ => .slti
  | .sltiu _ _ _ => .sltiu
  | .xori _ _ _ => .xori
  | .ori _ _ _ => .ori
  | .andi _ _ _ => .andi
  | .slli _ _ _ => .slli
  | .srli _ _ _ => .srli
  | .srai _ _ _ => .srai
  | .beq _ _ _ => .beq
  | .bne _ _ _ => .bne
  | .blt _ _ _ => .blt
  | .bge _ _ _ => .bge
  | .bltu _ _ _ => .bltu
  | .bgeu _ _ _ => .bgeu
  | .sb _ _ _ => .sb
  | .sh _ _ _ => .sh
  | .sw _ _ _ => .sw
  | .lui _ _ => .lui
  | .auipc _ _ => .auipc
  | .jal _ _ => .jal
  | .jalr _ _ _ => .jalr
  | .unknown => .unknown

/-- The immediate the text of a decoded instruction prints. -/
def instrImm (cfg : Config) (i : Instr) : Option Int :=
  match i with
  | .add _ _ _ => none
  | .sub _ _ _ => none
  | .sll _ _ _ => none
  | .slt _ _ _ => none
  | .sltu _ _ _ => none
  | .xor _ _ _ => none
  | .srl _ _ _ => none
  | .sra _ _ _ => none
  | .or _ _ _ => none
  | .and _ _ _ => none
  | .lb _ imm _ => some (sext imm)
  | .lh _ imm _ => some (sext imm)
  | .lw _ imm _ => some (sext imm)
  | .lbu _ imm _ => some (sext imm)
  | .lhu _ imm _ => some (sext imm)
  | .addi _ _ imm => some (sext imm)
  | .slti _ _ imm => some (sext imm)
  | .sltiu _ _ imm => some (sext imm)
  | .xori _ _ imm => some (sext imm)
  | .ori _ _ imm => some (sext imm)
  | .andi _ _ imm => some (sext imm)
  | .slli _ _ imm => some (sext imm)
  | .srli _ _ shamt => some (shamtValue shamt)
  | .srai _ _ shamt => some (shamtValue shamt)
  | .beq _ _ imm => some (sext imm)
  | .bne _ _ imm => some (sext imm)
  | .blt _ _ imm => some (sext imm)
  | .bge _ _ imm => some (sext imm)
  | .bltu _ _ imm => some (sext imm)
  | .bgeu _ _ imm => some (sext imm)
  | .sb _ imm _ => some (sext imm)
  | .sh _ imm _ => some (sext imm)
  | .sw _ imm _ => some (sext imm)
  | .lui _ imm => some (upperValue cfg imm)
  | .auipc _ imm => some (upperValue cfg imm)
  | .jal _ imm => some (sext imm)
  | .jalr _ imm _ => some (sext imm)
  | .unknown => none

/-- The text of a decoded instruction. -/
def instrText (cfg : Config) (i : Instr) : Text :=
  match i with
  | .add rd rs1 rs2 => textR (Kind.mnemonic .add) rd rs1 rs2
  | .sub rd rs1 rs2 => textR (Kind.mnemonic .sub) rd rs1 rs2
  | .sll rd rs1 rs2 => textR (Kind.mnemonic .sll) rd rs1 rs2
  | .slt rd rs1 rs2 => textR (Kind.mnemonic .slt) rd rs1 rs2
  | .sltu rd rs1 rs2 => textR (Kind.mnemonic .sltu) rd rs1 rs2
  | .xor rd rs1 rs2 => textR (Kind.mnemonic .xor) rd rs1 rs2
  | .srl rd rs1 rs2 => textR (Kind.mnemonic .srl) rd rs1 rs2
  | .sra rd rs1 rs2 => textR (Kind.mnemonic .sra) rd rs1 rs2
  | .or rd rs1 rs2 => textR (Kind.mnemonic .or) rd rs1 rs2
  | .and rd rs1 rs2 => textR (Kind.mnemonic .and) rd rs1 rs2
  | .lb rd imm rs1 => textIMem (Kind.mnemonic .lb) rd (sext imm) rs1
  | .lh rd imm rs1 => textIMem (Kind.mnemonic .lh) rd (sext imm) rs1
  | .lw rd imm rs1 => textIMem (Kind.mnemonic .lw) rd (sext imm) rs1
  | .lbu rd imm rs1 => textIMem (Kind.mnemonic .lbu) rd (sext imm) rs1
  | .lhu rd imm rs1 => textIMem (Kind.mnemonic .lhu) rd (sext imm) rs1
  | .addi rd rs1 imm => textIArith (Kind.mnemonic .addi) rd rs1 (sext imm)
  | .slti rd rs1 imm => textIArith (Kind.mnemonic .slti) rd rs1 (sext imm)
  | .sltiu rd rs1 imm => textIArith (Kind.mnemonic .sltiu) rd rs1 (sext imm)
  | .xori rd rs1 imm => textIArith (Kind.mnemonic .xori) rd rs1 (sext imm)
  | .ori rd rs1 imm => textIArith (Kind.mnemonic .ori) rd rs1 (sext imm)
  | .andi rd rs1 imm => textIArith (Kind.mnemonic .andi) rd rs1 (sext imm)
  | .slli rd rs1 imm => textIArith (Kind.mnemonic .slli) rd rs1 (sext imm)
  | .srli rd rs1 shamt => textIArith (Kind.mnemonic .srli) rd rs1 (shamtValue shamt)
  | .srai rd rs1 shamt => textIArith (Kind.mnemonic .srai) rd rs1 (shamtValue shamt)
  | .beq rs1 rs2 imm => textB (Kind.mnemonic .beq) rs1 rs2 (sext imm)
  | .bne rs1 rs2 imm => textB (Kind.mnemonic .bne) rs1 rs2 (sext imm)
  | .blt rs1 rs2 imm => textB (Kind.mnemonic .blt) rs1 rs2 (sext imm)
  | .bge rs1 rs2 imm => textB (Kind.mnemonic .bge) rs1 rs2 (sext imm)
  | .bltu rs1 rs2 imm => textB (Kind.mnemonic .bltu) rs1 rs2 (sext imm)
  | .bgeu rs1 rs2 imm => textB (Kind.mnemonic .bgeu) rs1 rs2 (sext imm)
  | .sb rs2 imm rs1 => textS (Kind.mnemonic .sb) rs2 (sext imm) rs1
  | .sh rs2 imm rs1 => textS (Kind.mnemonic .sh) rs2 (sext imm) rs1
  | .sw rs2 imm rs1 => textS (Kind.mnemonic .sw) rs2 (sext imm) rs1
  | .lui rd imm => textU (Kind.mnemonic .lui) rd (upperValue cfg imm)
  | .auipc rd imm => textU (Kind.mnemonic .auipc) rd (upperValue cfg imm)
  | .jal rd imm => textJ (Kind.mnemonic .jal) rd (sext imm)
  | .jalr rd imm rs1 => textIMem (Kind.mnemonic .jalr) rd (sext imm) rs1
  | .unknown => unknownText

/-- What `exec` does, for every instruction and every state (R57, R126). -/
theorem exec_eq_next_drive (i : Instr) (s : State) :
    exec i s = .next (drive (instrKind i) (instrKind i).template (instrImm s.cfg i) (instrText s.cfg i) s) := by
  cases i <;> rfl

/-- The one next state of `exec`. -/
theorem exec_eq_next_iff (i : Instr) (s t : State) :
    exec i s = .next t ↔ t = drive (instrKind i) (instrKind i).template (instrImm s.cfg i) (instrText s.cfg i) s := by
  rw [exec_eq_next_drive]
  exact ⟨fun h => by cases h; rfl, fun h => by rw [h]⟩

/-- An instruction has a printed immediate exactly when its template has one (R23, R118). -/
theorem instrImm_isSome (cfg : Config) (i : Instr) :
    (instrImm cfg i).isSome = ((instrKind i).template != .NONE && (instrKind i).template != .R) := by
  cases i <;> rfl

/-- The kind of a decoded word is the one the dispatch chose. -/
@[simp] theorem instrKind_instrOfKind (k : Kind) (w : Word) : instrKind (instrOfKind k w) = k := by
  cases k <;> rfl

@[simp] theorem instrKind_decode (cfg : Config) (w : Word) : instrKind (decode cfg w) = dispatch cfg w := by
  simp [decode]

/-- `call` answers a state for every word (R19, R57). -/
theorem call_eq_next_drive (w : Word) (s : State) :
    call w s = .next (drive (dispatch s.cfg w) (dispatch s.cfg w).template (instrImm s.cfg (decode s.cfg w))
      (instrText s.cfg (decode s.cfg w)) (s.present w)) := by
  simp [call, exec_eq_next_drive]

end Sys2Proof.Machine
end

