-- ==== Sys2Proof/Laws/Formatter.lean ====
section
/-! SUPPORT. Laws of the numerals, the register names and the text port. -/

namespace Sys2Proof.Machine

/-! ## Decimal numerals (R114) -/

/-- More depth than `n` changes nothing. -/
theorem udecFuel_stable (n : Nat) : ∀ fuel, n ≤ fuel → udecFuel fuel n = udec n := by
  induction n using Nat.strongRecOn with
  | _ n ih =>
    intro fuel hf
    unfold udec
    match fuel, n, hf with
    | 0, 0, _ => rfl
    | fuel + 1, 0, _ => simp [udecFuel]
    | fuel + 1, n + 1, hf =>
      simp only [udecFuel]
      split
      · rfl
      · have h1 : (n + 1) / 10 < n + 1 := by omega
        rw [ih _ h1 fuel (by omega), ih _ h1 n (by omega)]

/-- R114's recursive definition. -/
theorem udec_eq (n : Nat) : udec n = if n < 10 then [digit n] else udec (n / 10) ++ [digit (n % 10)] := by
  match n with
  | 0 => rfl
  | n + 1 =>
    conv_lhs => unfold udec
    simp only [udecFuel]
    split
    · rfl
    · rw [udecFuel_stable ((n + 1) / 10) n (by omega)]

theorem udec_of_lt {n : Nat} (h : n < 10) : udec n = [digit n] := by rw [udec_eq, if_pos h]

theorem udec_of_ge {n : Nat} (h : 10 ≤ n) : udec n = udec (n / 10) ++ [digit (n % 10)] := by
  rw [udec_eq, if_neg (by omega)]

/-- A numeral is never empty. -/
theorem udec_ne_nil (n : Nat) : udec n ≠ [] := by
  rw [udec_eq]; split <;> simp

theorem digit_toNat {d : Nat} (h : d < 10) : (digit d).toNat = 0x30 + d := by
  interval_cases d <;> rfl

/-- Every character of a numeral is a digit. -/
theorem udec_digits (n : Nat) : ∀ c ∈ udec n, ∃ d, d < 10 ∧ c = digit d := by
  induction n using Nat.strongRecOn with
  | _ n ih =>
    rw [udec_eq]
    split
    · intro c hc; exact ⟨n, by assumption, by simpa using hc⟩
    · intro c hc
      rcases List.mem_append.1 hc with h | h
      · exact ih _ (by omega) c h
      · exact ⟨n % 10, by omega, by simpa using h⟩

/-- A number below `10 ^ k` has at most `k` digits. -/
theorem udec_length_le : ∀ (k n : Nat), n < 10 ^ (k + 1) → (udec n).length ≤ k + 1
  | 0, n, h => by rw [udec_of_lt (by simpa using h)]; simp
  | k + 1, n, h => by
    rw [udec_eq]
    split
    · simp
    · have h2 : n / 10 < 10 ^ (k + 1) := by
        rw [Nat.div_lt_iff_lt_mul (by omega)]; rw [pow_succ] at h; exact h
      have := udec_length_le k (n / 10) h2
      simp only [List.length_append, List.length_singleton]; omega

/-- A number from `10 ^ k` up has more than `k` digits. -/
theorem le_udec_length : ∀ (k n : Nat), 10 ^ k ≤ n → k + 1 ≤ (udec n).length
  | 0, n, _ => List.length_pos_iff.2 (udec_ne_nil n)
  | k + 1, n, h => by
    have h10 : 10 ≤ n := le_trans (by rw [pow_succ]; have := Nat.one_le_pow k 10 (by omega); omega) h
    have h2 : 10 ^ k ≤ n / 10 := by
      rw [Nat.le_div_iff_mul_le (by omega)]; rw [pow_succ] at h; exact h
    have := le_udec_length k (n / 10) h2
    rw [udec_of_ge h10]
    simp only [List.length_append, List.length_singleton]; omega

/-! ## Signed decimal and register names (R113, R115) -/

theorem sdec_of_nonneg {i : Int} (h : 0 ≤ i) : sdec i = udec i.toNat := by simp [sdec, h]

theorem sdec_of_neg {i : Int} (h : i < 0) : sdec i = '-' :: udec (-i).toNat := by
  simp [sdec, show ¬ 0 ≤ i by omega]

/-- Two characters for the indices 0 to 9, three for 10 to 31 (R113). -/
theorem reg_length (i : RegIdx) : (reg i).length = if i.toNat < 10 then 2 else 3 := by
  have hi := i.isLt
  have h1 : i.toNat < 10 ^ 2 := by omega
  have hle := udec_length_le 1 i.toNat h1
  split
  · rename_i h; simp [reg, udec_of_lt h]
  · rename_i h
    have hge := le_udec_length 1 i.toNat (by omega)
    simp only [reg, List.length_cons]; omega

/-! ## The text port (R124) -/

/-- Digit `j` of the packed number is the code of character `j`, and 0 beyond the text or the width. -/
theorem packNat_digit (n : Nat) (t : Text) (j : Nat) :
    packNat n t / 256 ^ j % 256 = if j < n then (match t[j]? with | some c => (charCode c).toNat | none => 0) else 0 := by
  induction n generalizing t j with
  | zero => simp [packNat]
  | succ n ih =>
    cases t with
    | nil => simp [packNat]
    | cons c t =>
      have hc : (charCode c).toNat < 256 := (charCode c).isLt
      cases j with
      | zero => simp [packNat]; omega
      | succ j =>
        have h : packNat (n + 1) (c :: t) / 256 ^ (j + 1) = packNat n t / 256 ^ j := by
          rw [pow_succ', ← Nat.div_div_eq_div_mul]
          congr 1
          simp only [packNat]; omega
        rw [h, ih]
        simp

theorem packNat_lt (n : Nat) (t : Text) : packNat n t < 256 ^ n := by
  induction n generalizing t with
  | zero => simp [packNat]
  | succ n ih =>
    cases t with
    | nil => simp [packNat]
    | cons c t =>
      have hc : (charCode c).toNat < 256 := (charCode c).isLt
      have := ih t
      simp only [packNat, pow_succ]; omega

end Sys2Proof.Machine
end

