-- ==== Sys2Proof/Laws/PerInstr.lean ====
section
/-! SUPPORT. Statements about every instruction, one lemma per constructor of `Instr` (LAWS.json "per_instruction"). -/

namespace Sys2Proof.Laws.RoundTrip

/-- Decoding an encoded well-formed instruction gives it back, every operand at every value, under either value of either parameter. -/
def Statement (i : Instr) : Prop := i.wellFormed = true → ∀ cfg : Config, decode cfg (encode i) = i

/-- The round trip from its two halves: the dispatch finds the kind, and the kind's operands are the ones that were laid out. -/
theorem of_kind {i : Instr} {cfg : Config} (k : Kind) (hd : dispatch cfg (encode i) = k) (hi : instrOfKind k (encode i) = i) :
    decode cfg (encode i) = i := by
  rw [decode, hd, hi]

/-- Three operands that are equal one by one make equal instructions. -/
theorem operands3 {α β γ : Type} (f : α → β → γ → Instr) {a a' : α} {b b' : β} {c c' : γ} (ha : a = a') (hb : b = b') (hc : c = c') :
    f a b c = f a' b' c' := by
  rw [ha, hb, hc]

theorem add (rd rs1 rs2 : RegIdx) : Statement (.add rd rs1 rs2) := fun _ _ =>
  of_kind .add (dispatch_of_fields (opcodeOf_rWord ..) (funct3Of_rWord ..) (funct7Of_rWord ..))
    (operands3 Instr.add (rdOf_rWord ..) (rs1Of_rWord ..) (rs2Of_rWord ..))

theorem sub (rd rs1 rs2 : RegIdx) : Statement (.sub rd rs1 rs2) := fun _ _ =>
  of_kind .sub (dispatch_of_fields (opcodeOf_rWord ..) (funct3Of_rWord ..) (funct7Of_rWord ..))
    (operands3 Instr.sub (rdOf_rWord ..) (rs1Of_rWord ..) (rs2Of_rWord ..))

theorem sll (rd rs1 rs2 : RegIdx) : Statement (.sll rd rs1 rs2) := fun _ _ =>
  of_kind .sll (dispatch_of_fields (opcodeOf_rWord ..) (funct3Of_rWord ..) (funct7Of_rWord ..))
    (operands3 Instr.sll (rdOf_rWord ..) (rs1Of_rWord ..) (rs2Of_rWord ..))

theorem slt (rd rs1 rs2 : RegIdx) : Statement (.slt rd rs1 rs2) := fun _ _ =>
  of_kind .slt (dispatch_of_fields (opcodeOf_rWord ..) (funct3Of_rWord ..) (funct7Of_rWord ..))
    (operands3 Instr.slt (rdOf_rWord ..) (rs1Of_rWord ..) (rs2Of_rWord ..))

theorem sltu (rd rs1 rs2 : RegIdx) : Statement (.sltu rd rs1 rs2) := fun _ _ =>
  of_kind .sltu (dispatch_of_fields (opcodeOf_rWord ..) (funct3Of_rWord ..) (funct7Of_rWord ..))
    (operands3 Instr.sltu (rdOf_rWord ..) (rs1Of_rWord ..) (rs2Of_rWord ..))

theorem xor (rd rs1 rs2 : RegIdx) : Statement (.xor rd rs1 rs2) := fun _ _ =>
  of_kind .xor (dispatch_of_fields (opcodeOf_rWord ..) (funct3Of_rWord ..) (funct7Of_rWord ..))
    (operands3 Instr.xor (rdOf_rWord ..) (rs1Of_rWord ..) (rs2Of_rWord ..))

theorem srl (rd rs1 rs2 : RegIdx) : Statement (.srl rd rs1 rs2) := fun _ _ =>
  of_kind .srl (dispatch_of_fields (opcodeOf_rWord ..) (funct3Of_rWord ..) (funct7Of_rWord ..))
    (operands3 Instr.srl (rdOf_rWord ..) (rs1Of_rWord ..) (rs2Of_rWord ..))

theorem sra (rd rs1 rs2 : RegIdx) : Statement (.sra rd rs1 rs2) := fun _ _ =>
  of_kind .sra (dispatch_of_fields (opcodeOf_rWord ..) (funct3Of_rWord ..) (funct7Of_rWord ..))
    (operands3 Instr.sra (rdOf_rWord ..) (rs1Of_rWord ..) (rs2Of_rWord ..))

theorem or (rd rs1 rs2 : RegIdx) : Statement (.or rd rs1 rs2) := fun _ _ =>
  of_kind .or (dispatch_of_fields (opcodeOf_rWord ..) (funct3Of_rWord ..) (funct7Of_rWord ..))
    (operands3 Instr.or (rdOf_rWord ..) (rs1Of_rWord ..) (rs2Of_rWord ..))

theorem and (rd rs1 rs2 : RegIdx) : Statement (.and rd rs1 rs2) := fun _ _ =>
  of_kind .and (dispatch_of_fields (opcodeOf_rWord ..) (funct3Of_rWord ..) (funct7Of_rWord ..))
    (operands3 Instr.and (rdOf_rWord ..) (rs1Of_rWord ..) (rs2Of_rWord ..))

theorem lb (rd : RegIdx) (imm : BitVec 12) (rs1 : RegIdx) : Statement (.lb rd imm rs1) := fun _ _ =>
  of_kind .lb (dispatch_of_fields (opcodeOf_iWord ..) (funct3Of_iWord ..) rfl)
    (operands3 Instr.lb (rdOf_iWord ..) (immIField_iWord ..) (rs1Of_iWord ..))

theorem lh (rd : RegIdx) (imm : BitVec 12) (rs1 : RegIdx) : Statement (.lh rd imm rs1) := fun _ _ =>
  of_kind .lh (dispatch_of_fields (opcodeOf_iWord ..) (funct3Of_iWord ..) rfl)
    (operands3 Instr.lh (rdOf_iWord ..) (immIField_iWord ..) (rs1Of_iWord ..))

theorem lw (rd : RegIdx) (imm : BitVec 12) (rs1 : RegIdx) : Statement (.lw rd imm rs1) := fun _ _ =>
  of_kind .lw (dispatch_of_fields (opcodeOf_iWord ..) (funct3Of_iWord ..) rfl)
    (operands3 Instr.lw (rdOf_iWord ..) (immIField_iWord ..) (rs1Of_iWord ..))

theorem lbu (rd : RegIdx) (imm : BitVec 12) (rs1 : RegIdx) : Statement (.lbu rd imm rs1) := fun _ _ =>
  of_kind .lbu (dispatch_of_fields (opcodeOf_iWord ..) (funct3Of_iWord ..) rfl)
    (operands3 Instr.lbu (rdOf_iWord ..) (immIField_iWord ..) (rs1Of_iWord ..))

theorem lhu (rd : RegIdx) (imm : BitVec 12) (rs1 : RegIdx) : Statement (.lhu rd imm rs1) := fun _ _ =>
  of_kind .lhu (dispatch_of_fields (opcodeOf_iWord ..) (funct3Of_iWord ..) rfl)
    (operands3 Instr.lhu (rdOf_iWord ..) (immIField_iWord ..) (rs1Of_iWord ..))

theorem addi (rd rs1 : RegIdx) (imm : BitVec 12) : Statement (.addi rd rs1 imm) := fun _ _ =>
  of_kind .addi (dispatch_of_fields (opcodeOf_iWord ..) (funct3Of_iWord ..) rfl)
    (operands3 Instr.addi (rdOf_iWord ..) (rs1Of_iWord ..) (immIField_iWord ..))

theorem slti (rd rs1 : RegIdx) (imm : BitVec 12) : Statement (.slti rd rs1 imm) := fun _ _ =>
  of_kind .slti (dispatch_of_fields (opcodeOf_iWord ..) (funct3Of_iWord ..) rfl)
    (operands3 Instr.slti (rdOf_iWord ..) (rs1Of_iWord ..) (immIField_iWord ..))

theorem sltiu (rd rs1 : RegIdx) (imm : BitVec 12) : Statement (.sltiu rd rs1 imm) := fun _ _ =>
  of_kind .sltiu (dispatch_of_fields (opcodeOf_iWord ..) (funct3Of_iWord ..) rfl)
    (operands3 Instr.sltiu (rdOf_iWord ..) (rs1Of_iWord ..) (immIField_iWord ..))

theorem xori (rd rs1 : RegIdx) (imm : BitVec 12) : Statement (.xori rd rs1 imm) := fun _ _ =>
  of_kind .xori (dispatch_of_fields (opcodeOf_iWord ..) (funct3Of_iWord ..) rfl)
    (operands3 Instr.xori (rdOf_iWord ..) (rs1Of_iWord ..) (immIField_iWord ..))

theorem ori (rd rs1 : RegIdx) (imm : BitVec 12) : Statement (.ori rd rs1 imm) := fun _ _ =>
  of_kind .ori (dispatch_of_fields (opcodeOf_iWord ..) (funct3Of_iWord ..) rfl)
    (operands3 Instr.ori (rdOf_iWord ..) (rs1Of_iWord ..) (immIField_iWord ..))

theorem andi (rd rs1 : RegIdx) (imm : BitVec 12) : Statement (.andi rd rs1 imm) := fun _ _ =>
  of_kind .andi (dispatch_of_fields (opcodeOf_iWord ..) (funct3Of_iWord ..) rfl)
    (operands3 Instr.andi (rdOf_iWord ..) (rs1Of_iWord ..) (immIField_iWord ..))

theorem slli (rd rs1 : RegIdx) (imm : BitVec 12) : Statement (.slli rd rs1 imm) := fun _ _ =>
  of_kind .slli (dispatch_of_fields (opcodeOf_iWord ..) (funct3Of_iWord ..) rfl)
    (operands3 Instr.slli (rdOf_iWord ..) (rs1Of_iWord ..) (immIField_iWord ..))

theorem srli (rd rs1 : RegIdx) (shamt : BitVec 5) : Statement (.srli rd rs1 shamt) := fun _ _ =>
  of_kind .srli (dispatch_of_fields (opcodeOf_rWord ..) (funct3Of_rWord ..) (funct7Of_rWord ..))
    (operands3 Instr.srli (rdOf_rWord ..) (rs1Of_rWord ..) (rs2Of_rWord ..))

theorem srai (rd rs1 : RegIdx) (shamt : BitVec 5) : Statement (.srai rd rs1 shamt) := fun _ _ =>
  of_kind .srai (dispatch_of_fields (opcodeOf_rWord ..) (funct3Of_rWord ..) (funct7Of_rWord ..))
    (operands3 Instr.srai (rdOf_rWord ..) (rs1Of_rWord ..) (rs2Of_rWord ..))

theorem beq (rs1 rs2 : RegIdx) (imm : BitVec 13) : Statement (.beq rs1 rs2 imm) := fun h _ =>
  of_kind .beq (dispatch_of_fields (opcodeOf_bWord ..) (funct3Of_bWord ..) rfl)
    (operands3 Instr.beq (rs1Of_bWord ..) (rs2Of_bWord ..) (immBField_bWord _ _ _ _ _ h))

theorem bne (rs1 rs2 : RegIdx) (imm : BitVec 13) : Statement (.bne rs1 rs2 imm) := fun h _ =>
  of_kind .bne (dispatch_of_fields (opcodeOf_bWord ..) (funct3Of_bWord ..) rfl)
    (operands3 Instr.bne (rs1Of_bWord ..) (rs2Of_bWord ..) (immBField_bWord _ _ _ _ _ h))

theorem blt (rs1 rs2 : RegIdx) (imm : BitVec 13) : Statement (.blt rs1 rs2 imm) := fun h _ =>
  of_kind .blt (dispatch_of_fields (opcodeOf_bWord ..) (funct3Of_bWord ..) rfl)
    (operands3 Instr.blt (rs1Of_bWord ..) (rs2Of_bWord ..) (immBField_bWord _ _ _ _ _ h))

theorem bge (rs1 rs2 : RegIdx) (imm : BitVec 13) : Statement (.bge rs1 rs2 imm) := fun h _ =>
  of_kind .bge (dispatch_of_fields (opcodeOf_bWord ..) (funct3Of_bWord ..) rfl)
    (operands3 Instr.bge (rs1Of_bWord ..) (rs2Of_bWord ..) (immBField_bWord _ _ _ _ _ h))

theorem bltu (rs1 rs2 : RegIdx) (imm : BitVec 13) : Statement (.bltu rs1 rs2 imm) := fun h _ =>
  of_kind .bltu (dispatch_of_fields (opcodeOf_bWord ..) (funct3Of_bWord ..) rfl)
    (operands3 Instr.bltu (rs1Of_bWord ..) (rs2Of_bWord ..) (immBField_bWord _ _ _ _ _ h))

theorem bgeu (rs1 rs2 : RegIdx) (imm : BitVec 13) : Statement (.bgeu rs1 rs2 imm) := fun h _ =>
  of_kind .bgeu (dispatch_of_fields (opcodeOf_bWord ..) (funct3Of_bWord ..) rfl)
    (operands3 Instr.bgeu (rs1Of_bWord ..) (rs2Of_bWord ..) (immBField_bWord _ _ _ _ _ h))

theorem sb (rs2 : RegIdx) (imm : BitVec 12) (rs1 : RegIdx) : Statement (.sb rs2 imm rs1) := fun _ _ =>
  of_kind .sb (dispatch_of_fields (opcodeOf_sWord ..) (funct3Of_sWord ..) rfl)
    (operands3 Instr.sb (rs2Of_sWord ..) (immSField_sWord ..) (rs1Of_sWord ..))

theorem sh (rs2 : RegIdx) (imm : BitVec 12) (rs1 : RegIdx) : Statement (.sh rs2 imm rs1) := fun _ _ =>
  of_kind .sh (dispatch_of_fields (opcodeOf_sWord ..) (funct3Of_sWord ..) rfl)
    (operands3 Instr.sh (rs2Of_sWord ..) (immSField_sWord ..) (rs1Of_sWord ..))

theorem sw (rs2 : RegIdx) (imm : BitVec 12) (rs1 : RegIdx) : Statement (.sw rs2 imm rs1) := fun _ _ =>
  of_kind .sw (dispatch_of_fields (opcodeOf_sWord ..) (funct3Of_sWord ..) rfl)
    (operands3 Instr.sw (rs2Of_sWord ..) (immSField_sWord ..) (rs1Of_sWord ..))

theorem lui (rd : RegIdx) (imm : BitVec 32) : Statement (.lui rd imm) := fun h _ =>
  of_kind .lui (dispatch_of_fields (opcodeOf_uWord ..) rfl rfl)
    (congrArg₂ Instr.lui (rdOf_uWord ..) (immUField_uWord _ _ _ h))

theorem auipc (rd : RegIdx) (imm : BitVec 32) : Statement (.auipc rd imm) := fun h _ =>
  of_kind .auipc (dispatch_of_fields (opcodeOf_uWord ..) rfl rfl)
    (congrArg₂ Instr.auipc (rdOf_uWord ..) (immUField_uWord _ _ _ h))

theorem jal (rd : RegIdx) (imm : BitVec 21) : Statement (.jal rd imm) := fun h _ =>
  of_kind .jal (dispatch_of_fields (opcodeOf_jWord ..) rfl rfl)
    (congrArg₂ Instr.jal (rdOf_jWord ..) (immJField_jWord _ _ _ h))

theorem jalr (rd : RegIdx) (imm : BitVec 12) (rs1 : RegIdx) : Statement (.jalr rd imm rs1) := fun _ _ =>
  of_kind .jalr (dispatch_of_fields (opcodeOf_iWord ..) (funct3Of_iWord ..) rfl)
    (operands3 Instr.jalr (rdOf_iWord ..) (immIField_iWord ..) (rs1Of_iWord ..))

theorem unknown : Statement .unknown := fun _ _ => rfl

end Sys2Proof.Laws.RoundTrip
end

