-- ==== Sys2Proof/Laws/Step.lean ====
section
/-! SUPPORT. What `fetch` and `step` do, said once: every claim about a step is a case analysis of `step_cases`. -/

namespace Sys2Proof.Machine

/-- A chunk is there: it is the next word and the rest is whole words too. -/
theorem fetch_of_chunk {s : State} {w : Word} {rest : List Byte} (h : s.WholeImage) (ht : takeWord s.image = some (w, rest)) :
    fetch s = .ok (some (w, rest)) := by
  simp [fetch, show s.image.length % 4 = 0 from h, ht]

theorem fetch_of_empty {s : State} (h : s.image = []) : fetch s = .ok none := by
  simp [fetch, h]

theorem fetch_of_part {s : State} (h : ¬ s.WholeImage) : fetch s = .error .imageNotWholeWords := by
  simp [fetch, h]

/-- Everything a step can do: refuse an image that is not whole words, do nothing when the image is used up, or make the call for the
next chunk. -/
theorem step_cases (s : State) :
    (¬ s.WholeImage ∧ step s = .refused .imageNotWholeWords) ∨
    (s.image = [] ∧ step s = .next s) ∨
    (∃ w rest, s.WholeImage ∧ takeWord s.image = some (w, rest) ∧ step s = call w (s.withRest rest)) := by
  by_cases hw : s.WholeImage
  · rcases ht : takeWord s.image with _ | ⟨w, rest⟩
    · have h0 := takeWord_eq_none hw ht
      exact .inr (.inl ⟨h0, by simp [step, fetch_of_empty h0]⟩)
    · exact .inr (.inr ⟨w, rest, hw, rfl, by simp [step, fetch_of_chunk hw ht]⟩)
  · exact .inl ⟨hw, by simp [step, fetch_of_part hw]⟩

/-- A step over the next chunk is the call for its word. -/
theorem step_of_chunk {s : State} {w : Word} {rest : List Byte} (h : s.WholeImage) (ht : takeWord s.image = some (w, rest)) :
    step s = call w (s.withRest rest) := by
  simp [step, fetch_of_chunk h ht]

/-- The chunk a step takes leaves whole words behind. -/
theorem wholeImage_rest {s : State} {w : Word} {rest : List Byte} (h : s.WholeImage) (ht : takeWord s.image = some (w, rest)) :
    rest.length % 4 = 0 := by
  obtain ⟨b0, b1, b2, b3, hb, -⟩ := takeWord_eq_some ht
  have h' : s.image.length % 4 = 0 := h
  rw [hb] at h'
  simp only [List.length_cons] at h'
  omega

/-- The part of a byte list that is kept is whole words. -/
theorem length_wholeWords (bytes : List Byte) : (wholeWords bytes).length % 4 = 0 := by
  simp only [wholeWords, List.length_take]
  omega

/-- The host's entry: the very next step runs the word that was put in place, whatever the state. -/
theorem step_withFetchWord (s : State) (nbits w : Nat) :
    step (s.withFetchWord nbits w) =
      call (BitVec.ofNat 32 (w % 2 ^ nbits)) ((s.withFetchWord nbits w).withRest (wholeWords (s.image.drop 4))) := by
  apply step_of_chunk
  · have := length_wholeWords (s.image.drop 4)
    simp only [State.WholeImage, State.withFetchWord_image, List.length_append, length_wordBytes]
    omega
  · simp

end Sys2Proof.Machine
end

