-- ==== Sys2Proof/Tests/Slice0.lean ====
section
/-! SUPPORT. Tests of the model and witnesses for the hypotheses of the statements. Expected results are the worked examples of the rules
and the rows of 95_test_vectors.md; a word written in binary is laid out by R40. -/

namespace Sys2Proof.Tests

open Sys2Proof.Machine

/-- The state of an outcome that is a next state. -/
def nextOf (o : Host.Outcome State Fault Refusal) : Option State :=
  match o with
  | .next s => some s
  | _ => none

/-- The reason of an outcome that is a refusal. -/
def refusalOf (o : Host.Outcome State Fault Refusal) : Option Refusal :=
  match o with
  | .refused r => some r
  | _ => none

/-- The text and the immediate output (none where `imm_valid` is 0) after one step that runs the word of the table. -/
def stepShows (w : Nat) : Option (Text × Option (BitVec 32)) :=
  (nextOf (step (State.reset.withFetchWord 32 w))).map fun s => (s.out.text, if s.out.immValid then some s.out.imm else none)

/-- A state with the other value of both parameters, about to take the given image. -/
def other (image : List Byte) : State := { State.reset with cfg := ⟨false, false⟩, image := image }

/-! ## WellFormed refuses a term for each of its checks -/

theorem test_wellFormed_beq : (Instr.beq 1 2 1).wellFormed = false ∧ (Instr.beq 1 2 0x1FFE).wellFormed = true := by decide
theorem test_wellFormed_bne : (Instr.bne 1 2 1).wellFormed = false ∧ (Instr.bne 1 2 0x1FFE).wellFormed = true := by decide
theorem test_wellFormed_blt : (Instr.blt 1 2 1).wellFormed = false ∧ (Instr.blt 1 2 0x1FFE).wellFormed = true := by decide
theorem test_wellFormed_bge : (Instr.bge 1 2 1).wellFormed = false ∧ (Instr.bge 1 2 0x1FFE).wellFormed = true := by decide
theorem test_wellFormed_bltu : (Instr.bltu 1 2 1).wellFormed = false ∧ (Instr.bltu 1 2 0x1FFE).wellFormed = true := by decide
theorem test_wellFormed_bgeu : (Instr.bgeu 1 2 1).wellFormed = false ∧ (Instr.bgeu 1 2 0x1FFE).wellFormed = true := by decide
theorem test_wellFormed_jal : (Instr.jal 1 1).wellFormed = false ∧ (Instr.jal 1 0x1FFFFE).wellFormed = true := by decide
theorem test_wellFormed_lui : (Instr.lui 1 0x00000800).wellFormed = false ∧ (Instr.lui 1 0xFFFFF000).wellFormed = true := by decide
theorem test_wellFormed_auipc : (Instr.auipc 1 0x00000800).wellFormed = false ∧ (Instr.auipc 1 0xFFFFF000).wellFormed = true := by decide

/-! ## Every constructor is decoded from a word written out by R40 and R58 -/

/-- 0x002081B3, `add x3, x1, x2`. -/
theorem test_decode_add : decode blockConfig 0b0000000_00010_00001_000_00011_0110011 = .add 3 1 2 := by decide
/-- 0x402081B3, `sub x3, x1, x2`. -/
theorem test_decode_sub : decode blockConfig 0b0100000_00010_00001_000_00011_0110011 = .sub 3 1 2 := by decide
/-- 0x002091B3, `sll x3, x1, x2`. -/
theorem test_decode_sll : decode blockConfig 0b0000000_00010_00001_001_00011_0110011 = .sll 3 1 2 := by decide
/-- 0x0020A1B3, `slt x3, x1, x2`. -/
theorem test_decode_slt : decode blockConfig 0b0000000_00010_00001_010_00011_0110011 = .slt 3 1 2 := by decide
/-- 0x00A4BFB3, `sltu x31, x9, x10`. -/
theorem test_decode_sltu : decode blockConfig 0b0000000_01010_01001_011_11111_0110011 = .sltu 31 9 10 := by decide
/-- 0x4020C1B3, `xor x3, x1, x2`. -/
theorem test_decode_xor : decode blockConfig 0b0100000_00010_00001_100_00011_0110011 = .xor 3 1 2 := by decide
/-- 0x0020D1B3, `srl x3, x1, x2`. -/
theorem test_decode_srl : decode blockConfig 0b0000000_00010_00001_101_00011_0110011 = .srl 3 1 2 := by decide
/-- 0x4020D1B3, `sra x3, x1, x2`. -/
theorem test_decode_sra : decode blockConfig 0b0100000_00010_00001_101_00011_0110011 = .sra 3 1 2 := by decide
/-- 0x0020E1B3, `or x3, x1, x2`. -/
theorem test_decode_or : decode blockConfig 0b0000000_00010_00001_110_00011_0110011 = .or 3 1 2 := by decide
/-- 0xFFFFFFB3, `and x31, x31, x31`. -/
theorem test_decode_and : decode blockConfig 0b1111111_11111_11111_111_11111_0110011 = .and 31 31 31 := by decide
/-- 0xFFC10283, `lb x5, -4(x2)`. -/
theorem test_decode_lb : decode blockConfig 0b111111111100_00010_000_00101_0000011 = .lb 5 0xFFC 2 := by decide
/-- 0xFFC11283, `lh x5, -4(x2)`. -/
theorem test_decode_lh : decode blockConfig 0b111111111100_00010_001_00101_0000011 = .lh 5 0xFFC 2 := by decide
/-- 0xFFC12283, `lw x5, -4(x2)`. -/
theorem test_decode_lw : decode blockConfig 0b111111111100_00010_010_00101_0000011 = .lw 5 0xFFC 2 := by decide
/-- 0xFFC14283, `lbu x5, -4(x2)`. -/
theorem test_decode_lbu : decode blockConfig 0b111111111100_00010_100_00101_0000011 = .lbu 5 0xFFC 2 := by decide
/-- 0xFFC15283, `lhu x5, -4(x2)`. -/
theorem test_decode_lhu : decode blockConfig 0b111111111100_00010_101_00101_0000011 = .lhu 5 0xFFC 2 := by decide
/-- 0x00508193, `addi x3, x1, 5`. -/
theorem test_decode_addi : decode blockConfig 0b000000000101_00001_000_00011_0010011 = .addi 3 1 0x5 := by decide
/-- 0x0050A193, `slti x3, x1, 5`. -/
theorem test_decode_slti : decode blockConfig 0b000000000101_00001_010_00011_0010011 = .slti 3 1 0x5 := by decide
/-- 0x0050B193, `sltiu x3, x1, 5`. -/
theorem test_decode_sltiu : decode blockConfig 0b000000000101_00001_011_00011_0010011 = .sltiu 3 1 0x5 := by decide
/-- 0x0050C193, `xori x3, x1, 5`. -/
theorem test_decode_xori : decode blockConfig 0b000000000101_00001_100_00011_0010011 = .xori 3 1 0x5 := by decide
/-- 0x0050E193, `ori x3, x1, 5`. -/
theorem test_decode_ori : decode blockConfig 0b000000000101_00001_110_00011_0010011 = .ori 3 1 0x5 := by decide
/-- 0x0050F193, `andi x3, x1, 5`. -/
theorem test_decode_andi : decode blockConfig 0b000000000101_00001_111_00011_0010011 = .andi 3 1 0x5 := by decide
/-- 0x40309193, `slli x3, x1, 1027`. -/
theorem test_decode_slli : decode blockConfig 0b010000000011_00001_001_00011_0010011 = .slli 3 1 0x403 := by decide
/-- 0x0030D193, `srli x3, x1, 3`. -/
theorem test_decode_srli : decode blockConfig 0b0000000_00011_00001_101_00011_0010011 = .srli 3 1 3 := by decide
/-- 0x0230D193, `srai x3, x1, 3`. -/
theorem test_decode_srai : decode blockConfig 0b0000001_00011_00001_101_00011_0010011 = .srai 3 1 3 := by decide
/-- 0xFE208EE3, `beq x1, x2, -4`. -/
theorem test_decode_beq : decode blockConfig 0b1_111111_00010_00001_000_1110_1_1100011 = .beq 1 2 0x1FFC := by decide
/-- 0x00051463, `bne x10, x0, 8`. -/
theorem test_decode_bne : decode blockConfig 0b0_000000_00000_01010_001_0100_0_1100011 = .bne 10 0 0x8 := by decide
/-- 0x0020C863, `blt x1, x2, 16`. -/
theorem test_decode_blt : decode blockConfig 0b0_000000_00010_00001_100_1000_0_1100011 = .blt 1 2 0x10 := by decide
/-- 0xFE20DEE3, `bge x1, x2, -4`. -/
theorem test_decode_bge : decode blockConfig 0b1_111111_00010_00001_101_1110_1_1100011 = .bge 1 2 0x1FFC := by decide
/-- 0xFE20EEE3, `bltu x1, x2, -4`. -/
theorem test_decode_bltu : decode blockConfig 0b1_111111_00010_00001_110_1110_1_1100011 = .bltu 1 2 0x1FFC := by decide
/-- 0x0020F0E3, `bgeu x1, x2, 2048`. -/
theorem test_decode_bgeu : decode blockConfig 0b0_000000_00010_00001_111_0000_1_1100011 = .bgeu 1 2 0x800 := by decide
/-- 0x02A10023, `sb x10, 32(x2)`. -/
theorem test_decode_sb : decode blockConfig 0b0000001_01010_00010_000_00000_0100011 = .sb 10 0x20 2 := by decide
/-- 0xFE531FA3, `sh x5, -1(x6)`. -/
theorem test_decode_sh : decode blockConfig 0b1111111_00101_00110_001_11111_0100011 = .sh 5 0xFFF 6 := by decide
/-- 0xFEA12E23, `sw x10, -4(x2)`. -/
theorem test_decode_sw : decode blockConfig 0b1111111_01010_00010_010_11100_0100011 = .sw 10 0xFFC 2 := by decide
/-- 0x123452B7, `lui x5, 305418240`. -/
theorem test_decode_lui : decode blockConfig 0b00010010001101000101_00101_0110111 = .lui 5 0x12345000 := by decide
/-- 0x12345297, `auipc x5, 305418240`. -/
theorem test_decode_auipc : decode blockConfig 0b00010010001101000101_00101_0010111 = .auipc 5 0x12345000 := by decide
/-- 0xFE9FF06F, `jal x0, -24`. -/
theorem test_decode_jal : decode blockConfig 0b1_1111110100_1_11111111_00000_1101111 = .jal 0 0x1FFFE8 := by decide
/-- 0xFF4080E7, `jalr x1, -12(x1)`. -/
theorem test_decode_jalr : decode blockConfig 0b111111110100_00001_000_00001_1100111 = .jalr 1 0xFF4 1 := by decide
/-- 0x0220D1B3, `unknown instruction`. -/
theorem test_decode_unknown : decode blockConfig 0b0000001_00010_00001_101_00011_0110011 = .unknown := by decide

/-! ## One step of every constructor: text and immediate -/

theorem test_step_add : stepShows 0x01FF8FB3 = some ("add x31, x31, x31".toList, none) := by decide
theorem test_step_sub : stepShows 0x41FF8FB3 = some ("sub x31, x31, x31".toList, none) := by decide
theorem test_step_sll : stepShows 0x022091B3 = some ("sll x3, x1, x2".toList, none) := by decide
theorem test_step_slt : stepShows 0x0220A1B3 = some ("slt x3, x1, x2".toList, none) := by decide
theorem test_step_sltu : stepShows 0x0220B1B3 = some ("sltu x3, x1, x2".toList, none) := by decide
theorem test_step_xor : stepShows 0x0020C1B3 = some ("xor x3, x1, x2".toList, none) := by decide
theorem test_step_srl : stepShows 0x0020D1B3 = some ("srl x3, x1, x2".toList, none) := by decide
theorem test_step_sra : stepShows 0x40C5D7B3 = some ("sra x15, x11, x12".toList, none) := by decide
theorem test_step_or : stepShows 0x00006033 = some ("or x0, x0, x0".toList, none) := by decide
theorem test_step_and : stepShows 0x0020F1B3 = some ("and x3, x1, x2".toList, none) := by decide
theorem test_step_lb : stepShows 0xFFF00083 = some ("lb x1, -1(x0)".toList, some 0xFFFFFFFF) := by decide
theorem test_step_lh : stepShows 0x800F9F83 = some ("lh x31, -2048(x31)".toList, some 0xFFFFF800) := by decide
theorem test_step_lw : stepShows 0x7FFFAF83 = some ("lw x31, 2047(x31)".toList, some 0x000007FF) := by decide
theorem test_step_lbu : stepShows 0x800FCF83 = some ("lbu x31, -2048(x31)".toList, some 0xFFFFF800) := by decide
theorem test_step_lhu : stepShows 0x00815283 = some ("lhu x5, 8(x2)".toList, some 0x00000008) := by decide
theorem test_step_addi : stepShows 0x800F8F93 = some ("addi x31, x31, -2048".toList, some 0xFFFFF800) := by decide
theorem test_step_slti : stepShows 0x0050A193 = some ("slti x3, x1, 5".toList, some 0x00000005) := by decide
theorem test_step_sltiu : stepShows 0xFFF0B193 = some ("sltiu x3, x1, -1".toList, some 0xFFFFFFFF) := by decide
theorem test_step_xori : stepShows 0xFFF0C193 = some ("xori x3, x1, -1".toList, some 0xFFFFFFFF) := by decide
theorem test_step_ori : stepShows 0x00006013 = some ("ori x0, x0, 0".toList, some 0x00000000) := by decide
theorem test_step_andi : stepShows 0x0050F193 = some ("andi x3, x1, 5".toList, some 0x00000005) := by decide
theorem test_step_slli : stepShows 0x80009193 = some ("slli x3, x1, -2048".toList, some 0xFFFFF800) := by decide
theorem test_step_srli : stepShows 0x01FFDF93 = some ("srli x31, x31, 31".toList, some 0x0000001F) := by decide
theorem test_step_srai : stepShows 0x8030D193 = some ("srai x3, x1, 3".toList, some 0x00000003) := by decide
theorem test_step_beq : stepShows 0x81FF8063 = some ("beq x31, x31, -4096".toList, some 0xFFFFF000) := by decide
theorem test_step_bne : stepShows 0xFE031CE3 = some ("bne x6, x0, -8".toList, some 0xFFFFFFF8) := by decide
theorem test_step_blt : stepShows 0x00114463 = some ("blt x2, x1, 8".toList, some 0x00000008) := by decide
theorem test_step_bge : stepShows 0x0020D863 = some ("bge x1, x2, 16".toList, some 0x00000010) := by decide
theorem test_step_bltu : stepShows 0x7E006FE3 = some ("bltu x0, x0, 4094".toList, some 0x00000FFE) := by decide
theorem test_step_bgeu : stepShows 0x0020F863 = some ("bgeu x1, x2, 16".toList, some 0x00000010) := by decide
theorem test_step_sb : stepShows 0x81FF8023 = some ("sb x31, -2048(x31)".toList, some 0xFFFFF800) := by decide
theorem test_step_sh : stepShows 0x00A11FA3 = some ("sh x10, 31(x2)".toList, some 0x0000001F) := by decide
theorem test_step_sw : stepShows 0x02112023 = some ("sw x1, 32(x2)".toList, some 0x00000020) := by decide
theorem test_step_lui : stepShows 0x80000037 = some ("lui x0, -2147483648".toList, some 0x80000000) := by decide
theorem test_step_auipc : stepShows 0xFFFFFF97 = some ("auipc x31, -4096".toList, some 0xFFFFF000) := by decide
theorem test_step_jal : stepShows 0x80000FEF = some ("jal x31, -1048576".toList, some 0xFFF00000) := by decide
theorem test_step_jalr : stepShows 0xFFFFFFE7 = some ("jalr x31, -1(x31)".toList, some 0xFFFFFFFF) := by decide
theorem test_step_unknown : stepShows 0xFFFFFFFF = some ("unknown instruction".toList, none) := by decide

/-! ## Reset, bytes, runs -/

theorem test_reset_outputs : State.reset.OutputsFollowWord := by decide

/-- R106's example gives the outputs of the reset word. -/
theorem test_reset_text : State.reset.textLenPort = 19 ∧ State.reset.out.known = false := by decide

theorem test_decodeBytes_refuses_part_word :
    (decodeBytes blockConfig [0x93, 0x00, 0xA0]).toOption = none ∧ (decodeBytes blockConfig []).toOption = none ∧
    (decodeBytes blockConfig [0x93, 0x00, 0xA0, 0x00, 0x33]).toOption = some (.addi 1 0 10, [0x33]) := by decide

/-- 95_test_vectors.md section 2.12: the bytes in the order of the image. -/
theorem test_step_takes_the_first_chunk :
    (nextOf (step { State.reset with image := [0x93, 0x00, 0xA0, 0x00, 0x33, 0x00, 0x00, 0x00] })).map
      (fun s => (s.word, s.image, s.listing)) =
    some (0x00A00093, [0x33, 0x00, 0x00, 0x00], ["addi x1, x0, 10".toList]) := by decide

theorem test_withFetchWord_drops_a_part_chunk :
    (State.withFetchWord { State.reset with image := [1, 2, 3, 4, 5, 6, 7, 8, 9] } 32 0x00A00093).image =
      [0x93, 0x00, 0xA0, 0x00, 5, 6, 7, 8] := by decide

theorem test_decodeTableWord : decodeTableWord 32 0x00A00093 = some (.addi 1 0 10) ∧ decodeTableWord 32 0 = some .unknown := by decide

/-- Decision D7 overturned: 95_test_vectors.md program 2. -/
theorem test_unsigned_upper : renders ⟨false, true⟩ 0x800015B7 = "lui x11, 2147487744".toList := by decide

/-- Decision D8 overturned: section 2.4. -/
theorem test_lenient_pair : renders ⟨true, false⟩ 0x022081B3 = "add x3, x1, x2".toList := by decide

/-- The first two lines of program 1. -/
theorem test_listingOf :
    (listingOf blockConfig [0x93, 0x02, 0x00, 0x00, 0x13, 0x03, 0xA0, 0x00]).toOption =
      some ["addi x5, x0, 0".toList, "addi x6, x0, 10".toList] := by decide

/-! ## Witnesses: each meets the hypotheses of one statement, of each of its clauses, at the edges of their ranges -/

theorem witness_EveryCallDrivesTheFieldSet : (nextOf (call 0x123452B7 State.reset)).isSome = true := by decide

theorem witness_SignExtendIsTheSignedReading :
    ((1 ≤ 1 ∧ 1 ≤ 32) ∧ signExtend 1 1 = some (-1)) ∧ ((1 ≤ 32 ∧ 32 ≤ 32) ∧ signExtend 0x80000000 32 = some (-2147483648)) ∧
    signExtend 5 0 = none ∧ (32 < 33 ∧ signExtend 5 33 = none) := by decide

theorem witness_SignExtendLaws_a :
    (-(2 ^ (1 - 1) : Int) ≤ -1 ∧ (-1 : Int) ≤ 2 ^ (1 - 1) - 1) ∧
    (-(2 ^ (32 - 1) : Int) ≤ -2147483648 ∧ (2147483647 : Int) ≤ 2 ^ (32 - 1) - 1) := by decide

theorem witness_SignExtendLaws_c : 0xFFFFF7FF % 2 ^ 12 = 0x7FF % 2 ^ 12 := by decide

theorem witness_SignExtendLaws_d : signExtend 0xFFF 12 = some (-1) ∧ (-1 : Int) % 2 ^ 12 = 0xFFF := by decide

theorem witness_GatherLayoutsUseEachBitOnce :
    gatherB ∈ [gatherI, gatherS, gatherB, gatherU, gatherJ] ∧ 7 ∈ gatherSources gatherB ∧ 31 ∈ gatherSources gatherB ∧
    (gatherB, List.range' 1 12) ∈ [(gatherI, List.range' 0 12), (gatherS, List.range' 0 12), (gatherB, List.range' 1 12),
      (gatherU, List.range' 12 20), (gatherJ, List.range' 1 20)] := by decide

theorem witness_ShiftImmediates_slli : (0xFFF09093 : Word).extractLsb' 0 7 = 0x13 ∧ (0xFFF09093 : Word).extractLsb' 12 3 = 1 := by decide

theorem witness_ShiftImmediates_srli :
    (0x01FFDF93 : Word).extractLsb' 0 7 = 0x13 ∧ (0x01FFDF93 : Word).extractLsb' 12 3 = 5 ∧ (0x01FFDF93 : Word).extractLsb' 25 7 = 0 := by
  decide

theorem witness_ShiftImmediates_srai :
    (0x0230D193 : Word).extractLsb' 0 7 = 0x13 ∧ (0x0230D193 : Word).extractLsb' 12 3 = 5 ∧ (0x0230D193 : Word).extractLsb' 25 7 ≠ 0 := by
  decide

theorem witness_DecodeOfEncodeIsTheInstruction :
    (Instr.beq 31 31 0x1000).wellFormed = true ∧ (Instr.lui 31 0x80000000).wellFormed = true ∧
    (Instr.jal 31 0xFFFFE).wellFormed = true ∧ Instr.unknown.wellFormed = true := by decide

theorem witness_EncodeOfDecodeKeepsTheTestedBits :
    dispatch blockConfig 0xFFFFFFE7 ≠ .unknown ∧ dispatch ⟨true, false⟩ 0x022081B3 ≠ .unknown := by decide

theorem witness_DispatchFollowsTheOpcodeTable :
    blockConfig.rPairExact = true ∧ (⟨.srai, 0x0000707F, 0x00005013, true⟩ : TableRow) ∈ recognisedRows ∧
    (⟨.srai, 0x0000707F, 0x00005013, true⟩ : TableRow).holds 0x0230D193 = true ∧ dispatch blockConfig 0x0230D193 = .srai := by decide

theorem witness_NoTwoRowsHoldOfOneWord :
    (⟨.srli, 0xFE00707F, 0x00005013, false⟩ : TableRow) ∈ recognisedRows ∧
    (⟨.srli, 0xFE00707F, 0x00005013, false⟩ : TableRow).holds 0x01FFDF93 = true := by decide

theorem witness_UnknownWordsAreTheSixSets :
    (0x00010001 : Word).extractLsb' 0 2 ≠ 0b11 ∧
    (0xFFFFFFE7 : Word).extractLsb' 0 7 ∈ [0x13#7, 0x37#7, 0x17#7, 0x6F#7, 0x67#7] := by decide

theorem witness_PairParameterChangesOnlyItsWords :
    ((0x022081B3 : Word).extractLsb' 0 7 = 0x33 ∧ (0x022081B3 : Word).extractLsb' 12 3 ∈ [0#3, 5#3] ∧
      (0x022081B3 : Word).extractLsb' 25 7 ∉ [0x00#7, 0x20#7]) ∧
    ((0x8020D1B3 : Word).extractLsb' 0 7 = 0x33 ∧ (0x8020D1B3 : Word).extractLsb' 12 3 ∈ [0#3, 5#3] ∧
      (0x8020D1B3 : Word).extractLsb' 25 7 ∉ [0x00#7, 0x20#7]) ∧
    ¬ ((0x402081B3 : Word).extractLsb' 0 7 = 0x33 ∧ (0x402081B3 : Word).extractLsb' 12 3 ∈ [0#3, 5#3] ∧
      (0x402081B3 : Word).extractLsb' 25 7 ∉ [0x00#7, 0x20#7]) := by decide

/-- `jalr x0, 0(x1)` with funct3 1 and with funct3 0. -/
theorem witness_IgnoredBitsHaveNoEffect :
    dispatch blockConfig 0x00009067 = dispatch blockConfig 0x00008067 ∧ blockConfig.rPairExact = true ∧
    dispatch blockConfig 0x00008067 ≠ .unknown ∧ dispatch blockConfig 0x00008067 ≠ .srai ∧
    renders blockConfig 0x00009067 = renders blockConfig 0x00008067 ∧
    (0x00009067 : Word) &&& ~~~(Claims.ignoredBits blockConfig (dispatch blockConfig 0x00008067)) =
      0x00008067 &&& ~~~(Claims.ignoredBits blockConfig (dispatch blockConfig 0x00008067)) := by decide

theorem witness_StepRunsTheDecodedInstruction :
    (State.reset.withFetchWord 32 0x00A00093).image = 0x93 :: 0x00 :: 0xA0 :: 0x00 :: [] ∧ ([] : List Byte).length % 4 = 0 ∧
    decode (State.reset.withFetchWord 32 0x00A00093).cfg (0x00#8 ++ 0xA0#8 ++ 0x00#8 ++ 0x93#8) = .addi 1 0 10 ∧
    (Instr.addi 1 0 10).wellFormed = true := by decide

theorem witness_PartWordImageIsRefused :
    (other [1]).image.length % 4 ≠ 0 ∧ (other [1, 2, 3]).image.length % 4 ≠ 0 ∧ (other [1, 2, 3, 4, 5]).image.length % 4 ≠ 0 ∧
    refusalOf (step (other [1, 2, 3, 4, 5])) = some .imageNotWholeWords := by decide

theorem witness_UsedUpImageChangesNothing : State.reset.image = [] ∧ nextOf (step State.reset) = some State.reset := by decide

theorem witness_NothingFaultsAndEveryWordAnswers :
    (other []).WholeImage ∧ (other [0x93, 0x00, 0xA0, 0x00]).WholeImage := by decide

theorem witness_ExecLeavesTheRestUnchanged :
    (nextOf (exec (.sw 10 8 2) (other [1, 2, 3, 4]))).isSome = true ∧ (nextOf (call 0x00A12423 (other [1, 2, 3, 4]))).isSome = true := by
  decide

theorem witness_StepIsTheBlockFunction :
    (other [0x93, 0x00, 0xA0, 0x00, 5, 6, 7, 8]).image = 0x93 :: 0x00 :: 0xA0 :: 0x00 :: [5, 6, 7, 8] ∧
    ([5, 6, 7, 8] : List Byte).length % 4 = 0 := by decide

theorem witness_EveryStepKeepsOutputsFollowingTheWord :
    (other [0x93, 0x00, 0xA0, 0x00]).OutputsFollowWord ∧ (other [0x93, 0x00, 0xA0, 0x00]).WholeImage ∧
    (other [0x93, 0x00, 0xA0, 0x00]).ListingRendered ∧ (nextOf (step (other [0x93, 0x00, 0xA0, 0x00]))).isSome = true ∧
    (nextOf (call 0x80000037 (other [0x93, 0x00, 0xA0, 0x00]))).isSome = true :=
  ⟨by decide, by decide, fun _ h => absurd h (List.not_mem_nil), by decide, by decide⟩

theorem witness_SameWordSameOutputs :
    (other [1, 2, 3, 4]).cfg = (other []).cfg ∧ (nextOf (call 0x80000037 (other [1, 2, 3, 4]))).isSome = true ∧
    (nextOf (call 0x80000037 (other []))).isSome = true := by decide

theorem witness_RunListsOneTextPerWord :
    (other [0x93, 0x02, 0x00, 0x00, 0x13, 0x03, 0xA0, 0x00]).WholeImage ∧ ([] : List Byte).length % 4 = 0 ∧
    ([0x93, 0x02, 0x00, 0x00] : List Byte).length % 4 = 0 := by decide

theorem witness_PermutedImagePermutesTheListing : [0x00A00093#32, 0x00000033#32].Perm [0x00000033#32, 0x00A00093#32] := by decide

/-- A word of each pattern of R58 with opcode 0x33. -/
theorem witness_RTypeWordsRender :
    (0x01FF8FB3 : Word) &&& 0xFE00707F = 0x00000033 ∧ (0x41FF8FB3 : Word) &&& 0xFE00707F = 0x40000033 ∧
    (0x022091B3 : Word) &&& 0x0000707F = 0x00001033 ∧ (0x0220A1B3 : Word) &&& 0x0000707F = 0x00002033 ∧
    (0x0220B1B3 : Word) &&& 0x0000707F = 0x00003033 ∧ (0x4020C1B3 : Word) &&& 0x0000707F = 0x00004033 ∧
    (0x0020D1B3 : Word) &&& 0xFE00707F = 0x00005033 ∧ (0x4020D1B3 : Word) &&& 0xFE00707F = 0x40005033 ∧
    (0x0220E1B3 : Word) &&& 0x0000707F = 0x00006033 ∧ (0xFFFFFFB3 : Word) &&& 0x0000707F = 0x00007033 := by decide

theorem witness_LoadWordsRender :
    (0x800F8F83 : Word) &&& 0x0000707F = 0x00000003 ∧ (0x800F9F83 : Word) &&& 0x0000707F = 0x00001003 ∧
    (0x7FFFAF83 : Word) &&& 0x0000707F = 0x00002003 ∧ (0x800FCF83 : Word) &&& 0x0000707F = 0x00004003 ∧
    (0x00815283 : Word) &&& 0x0000707F = 0x00005003 ∧
    (0x00813283 : Word).extractLsb' 0 7 = 0x03 ∧ (0x00813283 : Word).extractLsb' 12 3 ∈ [3#3, 6#3, 7#3] ∧
    (0x00817283 : Word).extractLsb' 12 3 ∈ [3#3, 6#3, 7#3] := by decide

theorem witness_ImmediateWordsRender :
    (0x800F8F93 : Word) &&& 0x0000707F = 0x00000013 ∧ (0x0050A193 : Word) &&& 0x0000707F = 0x00002013 ∧
    (0xFFF0B193 : Word) &&& 0x0000707F = 0x00003013 ∧ (0xFFF0C193 : Word) &&& 0x0000707F = 0x00004013 ∧
    (0x0050E193 : Word) &&& 0x0000707F = 0x00006013 ∧ (0x0050F193 : Word) &&& 0x0000707F = 0x00007013 ∧
    (0x80009193 : Word) &&& 0x0000707F = 0x00001013 ∧ (0x01FFDF93 : Word) &&& 0xFE00707F = 0x00005013 ∧
    (0x0230D193 : Word) &&& 0x0000707F = 0x00005013 ∧ (0x0230D193 : Word) &&& 0xFE000000 ≠ 0 ∧
    (0xFFF0D193 : Word) &&& 0x0000707F = 0x00005013 ∧ (0xFFF0D193 : Word) &&& 0xFE000000 ≠ 0 := by decide

theorem witness_BranchWordsRender :
    (0x81FF8063 : Word) &&& 0x0000707F = 0x00000063 ∧ (0xFE209EE3 : Word) &&& 0x0000707F = 0x00001063 ∧
    (0x0020C863 : Word) &&& 0x0000707F = 0x00004063 ∧ (0xFE20DEE3 : Word) &&& 0x0000707F = 0x00005063 ∧
    (0x7E006FE3 : Word) &&& 0x0000707F = 0x00006063 ∧ (0x0020F0E3 : Word) &&& 0x0000707F = 0x00007063 ∧
    (0x0020A463 : Word).extractLsb' 0 7 = 0x63 ∧ (0x0020A463 : Word).extractLsb' 12 3 ∈ [2#3, 3#3] ∧
    (0x0020B463 : Word).extractLsb' 12 3 ∈ [2#3, 3#3] := by decide

theorem witness_StoreWordsRender :
    (0x81FF8023 : Word) &&& 0x0000707F = 0x00000023 ∧ (0x00A11FA3 : Word) &&& 0x0000707F = 0x00001023 ∧
    (0x7E002FA3 : Word) &&& 0x0000707F = 0x00002023 ∧ (0x00A13423 : Word).extractLsb' 0 7 = 0x23 ∧
    (0x00A13423 : Word).extractLsb' 12 3 ∈ [3#3, 4#3, 5#3, 6#3, 7#3] ∧
    (0x00A17423 : Word).extractLsb' 12 3 ∈ [3#3, 4#3, 5#3, 6#3, 7#3] := by decide

theorem witness_UpperWordsRender :
    (0x80000037 : Word) &&& 0x0000007F = 0x00000037 ∧ (0xFFFFFF97 : Word) &&& 0x0000007F = 0x00000017 ∧
    (0x80000037 : Word).extractLsb' 0 7 = 0x37 ∧ (0xFFFFFF97 : Word).extractLsb' 0 7 = 0x17 := by decide

theorem witness_JalWordsRender : (0x80000FEF : Word) &&& 0x0000007F = 0x0000006F := by decide

theorem witness_JalrWordsRender : (0x0042F0E7 : Word) &&& 0x0000007F = 0x00000067 := by decide

theorem witness_UnknownWordsRender : dispatch State.reset.cfg 0x00000000 = .unknown ∧ dispatch (other []).cfg 0x00003003 = .unknown := by
  decide

theorem witness_PortsFollowTheKind :
    (nextOf (exec (.add 1 2 3) State.reset)).map (fun t => t.out.immValid) = some false ∧ Kind.code .lui = Kind.code .lui := by decide

theorem witness_DecimalNumerals : (udec 0).head? = some '0' ∧ '9' ∈ udec 2090 := by decide

theorem witness_SignedNumerals : 0 < 1 ∧ sdec (-1) = sdec (-1) := by decide

theorem witness_RegisterNamesAreDecimal : (9 : RegIdx).toNat < 10 ∧ 10 ≤ (10 : RegIdx).toNat ∧ reg 31 = reg 31 := by decide

theorem witness_TextsUseTheAlphabet : '(' ∈ renders blockConfig 0x00A12423 ∧ '-' ∈ Claims.alphabet := by decide

/-- The two ends of the range of the longest text, and the values beside them. -/
theorem witness_TextLengthsAreBounded :
    blockConfig.uRenderSigned = true ∧ (renders blockConfig 0x80000517).length = 22 ∧ (renders blockConfig 0xC4653F97).length = 22 ∧
    (renders blockConfig 0x7FFFF517).length = 21 ∧ (renders blockConfig 0xC4654F97).length = 21 := by decide

theorem witness_TextPortPacksTheText :
    (nextOf (call 0x00A00093 State.reset)).map (fun t => (textMax t.cfg, t.out.text.length, portByte t.textPort 14, portByte t.textPort 21)) =
      some (22, 15, 0x30, 0x00) := by decide

end Sys2Proof.Tests
end

section
/-! PROOFS. The block's state (10_state.md): what a call and a step do to every field, said once as the block function of the word, and
the claims of that family. -/

namespace Sys2Proof

open Sys2Proof.Machine

/-! ## The shift amount as a part of the I-immediate (R40, R47) -/

/-- The I-immediate is the upper part and the shift amount, one after the other. -/
theorem immIField_eq_append (w : Word) : immIField w = funct7Of w ++ rs2Of w :=
  (BitVec.extractLsb'_append_extractLsb'_eq_extractLsb' (x := w) (start₂ := 25) (start₁ := 20) (len₂ := 7) (len₁ := 5) rfl).symm

/-- The signed I-immediate in the two parts: the upper part counts 32 each. -/
theorem immI_eq_upper_add_shamt (w : Word) : immI w = 32 * (funct7Of w).toInt + shamtValue (rs2Of w) := by
  rw [immI, sext, immIField_eq_append, BitVec.toInt_append]
  rfl

/-- With a zero upper part the I-immediate is the shift amount (R88). -/
theorem immI_of_funct7Of_eq_zero {w : Word} (h : funct7Of w = 0) : immI w = shamtValue (rs2Of w) := by
  rw [immI_eq_upper_add_shamt, h]
  simp

/-- R47's mask keeps the shift amount, whatever the upper part (R89). -/
theorem bv32_immI_and_mask (w : Word) : bv32 (immI w) &&& 0x1F = (rs2Of w).setWidth 32 := by
  have hmask : ∀ i < 32, (0x1F : BitVec 32).getLsbD i = decide (i < 5) := by decide
  show (immIField w).signExtend 32 &&& 0x1F = _
  apply BitVec.eq_of_getLsbD_eq
  intro i hi
  rw [BitVec.getLsbD_and, hmask i hi, BitVec.getLsbD_signExtend, BitVec.getLsbD_setWidth]
  simp only [immIField, rs2Of, BitVec.getLsbD_extractLsb']
  grind

theorem immMasked_eq_shamtValue (w : Word) : immMasked w = shamtValue (rs2Of w) := by
  rw [immMasked, bv32_immI_and_mask, shamtValue, BitVec.toNat_setWidth_of_le (by decide)]

/-! ## The upper part of an `srli` word (R51, R88) -/

theorem dispatchR_ne_srli (cfg : Config) (f3 : BitVec 3) (f7 : BitVec 7) : dispatchR cfg f3 f7 ≠ .srli := by
  unfold dispatchR; split_ifs <;> decide

theorem dispatchLoad_ne_srli (f3 : BitVec 3) : dispatchLoad f3 ≠ .srli := by
  unfold dispatchLoad; split_ifs <;> decide

theorem dispatchBranch_ne_srli (f3 : BitVec 3) : dispatchBranch f3 ≠ .srli := by
  unfold dispatchBranch; split_ifs <;> decide

theorem dispatchStore_ne_srli (f3 : BitVec 3) : dispatchStore f3 ≠ .srli := by
  unfold dispatchStore; split_ifs <;> decide

theorem upper_eq_zero_of_dispatchOpImm_eq_srli {f3 : BitVec 3} {upper : BitVec 7} (h : dispatchOpImm f3 upper = .srli) :
    upper = 0 := by
  unfold dispatchOpImm at h; split_ifs at h; assumption

/-- Only opcode 0x13 has `srli`, and there only with a zero upper part. -/
theorem funct7Of_eq_zero_of_dispatch_eq_srli {cfg : Config} {w : Word} (h : dispatch cfg w = .srli) : funct7Of w = 0 := by
  unfold dispatch at h
  split_ifs at h
  · exact absurd h (dispatchR_ne_srli _ _ _)
  · exact absurd h (dispatchLoad_ne_srli _)
  · exact upper_eq_zero_of_dispatchOpImm_eq_srli h
  · exact absurd h (dispatchBranch_ne_srli _)
  · exact absurd h (dispatchStore_ne_srli _)

end Sys2Proof

namespace Sys2Proof.Machine

/-! ## The decoded operands against the slices of the word (R10, R117, R118) -/

/-- The text of a decoded instruction is its template filled from the word's slices and the immediate it prints. -/
theorem instrText_instrOfKind (cfg : Config) (k : Kind) (w : Word) :
    instrText cfg (instrOfKind k w) = renderWord k ((instrImm cfg (instrOfKind k w)).getD 0) w := by
  cases k <;> rfl

/-- The operand a decoded instruction prints as its immediate is the one its word prints. The two shifts carry the 5-bit amount: for
`srai` it is the masked immediate, for `srli` the whole immediate because the dispatch found the upper part zero. -/
theorem instrImm_decode (cfg : Config) (w : Word) : instrImm cfg (decode cfg w) = printedImm cfg (dispatch cfg w) w := by
  have hsrli : dispatch cfg w = .srli → shamtValue (rs2Of w) = immI w := fun h =>
    (immI_of_funct7Of_eq_zero (funct7Of_eq_zero_of_dispatch_eq_srli h)).symm
  unfold decode
  generalize dispatch cfg w = k at hsrli ⊢
  cases k
  case srli => exact congrArg some (hsrli rfl)
  case srai => exact congrArg some (immMasked_eq_shamtValue w).symm
  all_goals rfl

theorem instrText_decode (cfg : Config) (w : Word) : instrText cfg (decode cfg w) = renders cfg w := by
  simp only [renders, blockOutputs, ← instrImm_decode]
  exact instrText_instrOfKind ..

/-! ## What a call does: the block function of the word (R10) -/

/-- A call drives exactly the outputs of the block function, adds the text to the listing, and changes nothing else. -/
theorem call_eq_next_blockOutputs (w : Word) (s : State) :
    call w s = .next
      { s with word := w, out := blockOutputs s.cfg w, listing := s.listing ++ [renders s.cfg w] } := by
  rw [call_eq_next_drive, instrImm_decode, instrText_decode]
  rfl

/-- The one next state of a call. -/
theorem eq_of_call_eq_next {w : Word} {s t : State} (h : call w s = .next t) :
    t = { s with word := w, out := blockOutputs s.cfg w, listing := s.listing ++ [renders s.cfg w] } := by
  rw [call_eq_next_blockOutputs] at h
  cases h; rfl

/-- A call changes the word, the outputs and the listing alone. -/
theorem call_frame {w : Word} {s t : State} (h : call w s = .next t) :
    t.cfg = s.cfg ∧ t.image = s.image ∧ t.word = w ∧ t.listing = s.listing ++ [t.out.text] := by
  cases eq_of_call_eq_next h
  exact ⟨rfl, rfl, rfl, rfl⟩

theorem out_of_call {w : Word} {s t : State} (h : call w s = .next t) : t.out = blockOutputs s.cfg w := by
  cases eq_of_call_eq_next h
  rfl

/-! ## The invariant (R24) -/

/-- One more rendered text keeps the listing a listing of rendered texts. -/
theorem listingRendered_of_append {s t : State} {w : Word} (hs : s.ListingRendered) (hcfg : t.cfg = s.cfg)
    (hl : t.listing = s.listing ++ [renders s.cfg w]) : t.ListingRendered := by
  intro txt htxt
  rw [hl, List.mem_append, List.mem_singleton] at htxt
  rw [hcfg]
  rcases htxt with hold | hnew
  · exact hs txt hold
  · exact ⟨w, hnew⟩

/-- After a call the outputs follow the word, whatever they were before it. -/
theorem call_keeps_invariant {w : Word} {s t : State} (himg : s.WholeImage) (hlist : s.ListingRendered)
    (h : call w s = .next t) : t.OutputsFollowWord ∧ t.WholeImage ∧ t.ListingRendered := by
  cases eq_of_call_eq_next h
  exact ⟨rfl, himg, listingRendered_of_append hlist rfl rfl⟩

/-- Settles O26: a step refuses, does nothing, or is the call for the next chunk, and a call keeps the invariant. -/
theorem everyStepKeepsOutputsFollowingTheWord : Obligations.EveryStepKeepsOutputsFollowingTheWord := by
  refine ⟨fun s t hout himg hlist h => ?_, fun w s t himg hlist h => call_keeps_invariant himg hlist h⟩
  rcases step_cases s with ⟨hpart, -⟩ | ⟨-, hidle⟩ | ⟨w, rest, -, htake, hcall⟩
  · exact absurd himg hpart
  · rw [hidle] at h
    cases h
    exact ⟨hout, himg, hlist⟩
  · rw [hcall] at h
    exact call_keeps_invariant (s := s.withRest rest) (wholeImage_rest himg htake) hlist h

/-- Settles O27: by computing the block function of the reset word. -/
theorem resetMeetsTheInvariant : Obligations.ResetMeetsTheInvariant := by
  have hout : State.reset.OutputsFollowWord := by decide
  have hlist : State.reset.ListingRendered := fun _ h => absurd h List.not_mem_nil
  exact ⟨rfl, rfl, rfl, hout, rfl, hlist⟩

/-! ## Frame and refinement (R10 to R20) -/

/-- Settles O2: the call's outputs are the block function's, whose fields are the slices of the word. -/
theorem everyCallDrivesTheFieldSet : Obligations.EveryCallDrivesTheFieldSet := by
  refine ⟨fun s w => ⟨_, call_eq_next_blockOutputs w s, rfl, rfl, rfl, rfl, rfl, rfl⟩,
    ⟨_, call_eq_next_blockOutputs _ _, ?_, ?_⟩⟩
  · show dispatch blockConfig 0x123452B7 = .lui
    decide
  · show extractFields 0x123452B7 = _
    decide

/-- Settles O24: every instruction only drives the outputs, and a call only presents its word before. -/
theorem execLeavesTheRestUnchanged : Obligations.ExecLeavesTheRestUnchanged := by
  refine ⟨fun i s t h => ?_, fun w s t h => call_frame h⟩
  rw [exec_eq_next_iff] at h
  subst h
  simp

/-- Settles O25: a step over four bytes and whole words is the call for the word they assemble to. -/
theorem stepIsTheBlockFunction : Obligations.StepIsTheBlockFunction := by
  refine ⟨fun s b0 b1 b2 b3 rest himg hrest => ?_, fun s w => call_eq_next_blockOutputs w s⟩
  have hwhole : s.WholeImage := by
    simp only [State.WholeImage, himg, List.length_cons]
    omega
  have htake : takeWord s.image = some (assemble b0 b1 b2 b3, rest) := by rw [himg, takeWord_cons]
  rw [step_of_chunk hwhole htake, call_eq_next_blockOutputs]
  rfl

/-- Settles O28: the outputs of a call are the block function of its word under parameters that no call changes. -/
theorem sameWordSameOutputs : Obligations.SameWordSameOutputs := by
  refine ⟨fun w r s r' s' hcfg hr hs => ?_, fun v w s s1 s2 t1 t2 hv hw hw' hv' => ?_⟩
  · rw [out_of_call hr, out_of_call hs, hcfg]
  · obtain ⟨hcfg1, -⟩ := call_frame hv
    obtain ⟨hcfg2, -⟩ := call_frame hw'
    rw [out_of_call hv, out_of_call hw, out_of_call hw', out_of_call hv', hcfg1, hcfg2]
    exact ⟨rfl, rfl⟩

/-! ## The ports and the codes of the tables (R21 to R23) -/

theorem knownOf_iff_code_ne_zero (k : Kind) : knownOf k = true ↔ k.code ≠ 0 := by
  cases k <;> decide

/-- Every kind stands in R58's column with its template. -/
theorem template_mem_templateColumn (k : Kind) : (k, k.template) ∈ Claims.templateColumn := by
  cases k <;> decide

/-- The codes down the column are 0 to 37 (D2). -/
theorem templateColumn_codes : Claims.templateColumn.map (fun p => p.1.code.toNat) = List.range 38 := by
  decide

/-- Different kinds have different codes: the column holds every kind and no code twice. -/
theorem eq_of_code_eq {j k : Kind} (h : j.code = k.code) : j = k := by
  have hnodup : (Claims.templateColumn.map (fun p => p.1.code.toNat)).Nodup := by
    rw [templateColumn_codes]
    exact List.nodup_range
  have hpair := List.inj_on_of_nodup_map hnodup (template_mem_templateColumn j) (template_mem_templateColumn k)
    (congrArg BitVec.toNat h)
  exact congrArg Prod.fst hpair

theorem immPortOf_of_not_valid {v : Option Int} (h : immValidOf v = false) : immPortOf v = 0x00000000 := by
  cases v with
  | none => rfl
  | some i => cases h

/-- `imm_valid` of an instruction follows its template (R23). -/
theorem immValidOf_instrImm_iff (cfg : Config) (i : Instr) :
    immValidOf (instrImm cfg i) = true ↔ (instrKind i).template ≠ .R ∧ (instrKind i).template ≠ .NONE := by
  rw [immValidOf, instrImm_isSome, Bool.and_eq_true, bne_iff_ne, bne_iff_ne, and_comm]

/-- Settles O47: the ports are driven from the kind, and the codes are read off R58's column. -/
theorem portsFollowTheKind : Obligations.PortsFollowTheKind := by
  refine ⟨fun i s t h => ?_, templateColumn_codes, fun _ _ => eq_of_code_eq, by decide⟩
  rw [exec_eq_next_iff] at h
  subst h
  exact ⟨knownOf_iff_code_ne_zero _, template_mem_templateColumn _, immValidOf_instrImm_iff _ _, immPortOf_of_not_valid⟩

end Sys2Proof.Machine
end

section
/-! PROOFS. The instruction image (20_memory.md): how four bytes make a word, and what an image that is not whole words comes to. -/

namespace Sys2Proof

open Sys2Proof.Machine

/-! ## The bytes of an assembled word (R26) -/

section
variable (b0 b1 b2 b3 : Byte)

@[simp] theorem extractLsb'_0_assemble : (assemble b0 b1 b2 b3).extractLsb' 0 8 = b0 :=
  BitVec.extractLsb'_append_eq_right (a := b3 ++ b2 ++ b1)

/-- Past the lowest byte a slice is one of the three bytes above it. -/
theorem extractLsb'_assemble_of_le {k : Nat} (h : 8 ≤ k) :
    (assemble b0 b1 b2 b3).extractLsb' k 8 = (b3 ++ b2 ++ b1).extractLsb' (k - 8) 8 :=
  BitVec.extractLsb'_append_eq_of_le h

@[simp] theorem extractLsb'_8_assemble : (assemble b0 b1 b2 b3).extractLsb' 8 8 = b1 := by
  rw [extractLsb'_assemble_of_le _ _ _ _ le_rfl]
  exact BitVec.extractLsb'_append_eq_right

@[simp] theorem extractLsb'_16_assemble : (assemble b0 b1 b2 b3).extractLsb' 16 8 = b2 := by
  rw [extractLsb'_assemble_of_le _ _ _ _ (by decide), BitVec.extractLsb'_append_eq_of_le (by decide)]
  exact BitVec.extractLsb'_append_eq_right

@[simp] theorem extractLsb'_24_assemble : (assemble b0 b1 b2 b3).extractLsb' 24 8 = b3 := by
  rw [extractLsb'_assemble_of_le _ _ _ _ (by decide), BitVec.extractLsb'_append_eq_of_le (by decide)]
  exact BitVec.extractLsb'_append_eq_left

@[simp] theorem wordBytes_assemble : wordBytes (assemble b0 b1 b2 b3) = [b0, b1, b2, b3] := by
  simp [wordBytes]

end

/-- Settles O20: the slices of an assembled word are its bytes, `takeWord` undoes `wordBytes`, and the two worked words are computed. -/
theorem assemblyIsLittleEndian : Obligations.AssemblyIsLittleEndian := by
  refine ⟨fun b0 b1 b2 b3 => ⟨rfl, ?_⟩, takeWord_wordBytes_append, ?_⟩
  · exact ⟨extractLsb'_0_assemble .., extractLsb'_8_assemble .., extractLsb'_16_assemble .., extractLsb'_24_assemble ..,
      wordBytes_assemble ..⟩
  · decide

end Sys2Proof

namespace Sys2Proof.Machine

/-! ## An image that is not whole words (R27, R139) -/

theorem step_of_part {s : State} (h : ¬ s.WholeImage) : step s = .refused .imageNotWholeWords := by
  rw [step, fetch_of_part h]

theorem listingOf_of_part (cfg : Config) {bytes : List Byte} (h : bytes.length % 4 ≠ 0) :
    listingOf cfg bytes = .error .imageNotWholeWords :=
  if_neg h

/-- Settles O21: `fetch` and `listingOf` look at the length before any chunk is taken. -/
theorem partWordImageIsRefused : Obligations.PartWordImageIsRefused :=
  ⟨fun _ h => step_of_part h, fun cfg _ h => listingOf_of_part cfg h⟩

end Sys2Proof.Machine
end

section
/-! PROOFS. Encoding (30_encoding.md): the fields, sign extension and the immediates, the dispatch against the opcode table, the encoder
against the decoder, the count of the recognised words, and the bits that are ignored. -/

namespace Sys2Proof

open Sys2Proof.Machine

/-! ## The fields and the word they are cut from (R36) -/

/-- The six slices, laid out in their order, are the word. -/
@[simp] theorem rWord_fields (w : Word) :
    rWord (funct7Of w) (rs2Of w) (rs1Of w) (funct3Of w) (rdOf w) (opcodeOf w) = w := by
  apply BitVec.eq_of_getLsbD_eq
  intro i hi
  simp only [getLsbD_rWord, opcodeOf, rdOf, funct3Of, rs1Of, rs2Of, funct7Of, BitVec.getLsbD_extractLsb']
  grind

/-- A slice as a shift and a mask of as many ones as it is wide. -/
theorem toNat_extractLsb'_eq_shift_and_mask (w : Word) (lo len : Nat) :
    (w.extractLsb' lo len).toNat = (w.toNat >>> lo) &&& (2 ^ len - 1) := by
  rw [BitVec.extractLsb'_toNat, Nat.and_two_pow_sub_one_eq_mod]

/-- Settles O1: every field is a slice, hence a shift and a mask, and the slices laid out again are the word. -/
theorem fieldsAreTheSixSlices : Obligations.FieldsAreTheSixSlices := by
  refine ⟨fun w => ⟨⟨?_, ?_, ?_, ?_, ?_, ?_⟩, (rWord_fields w).symm⟩, by decide⟩
  · exact toNat_extractLsb'_eq_shift_and_mask w 0 7
  · exact toNat_extractLsb'_eq_shift_and_mask w 7 5
  · exact toNat_extractLsb'_eq_shift_and_mask w 12 3
  · exact toNat_extractLsb'_eq_shift_and_mask w 15 5
  · exact toNat_extractLsb'_eq_shift_and_mask w 20 5
  · exact toNat_extractLsb'_eq_shift_and_mask w 25 7

/-! ## Sign extension (R38, R39) -/

/-- Below the sign bit, setting it by XOR is adding it. -/
theorem xor_two_pow_of_lt {n r : Nat} (h : r < 2 ^ n) : r ^^^ 2 ^ n = r + 2 ^ n := by
  rw [Nat.add_comm, ← Nat.mul_one (2 ^ n), Nat.two_pow_add_eq_or_of_lt h, Nat.mul_one]
  apply Nat.eq_of_testBit_eq
  intro i
  have hn : r.testBit n = false := Nat.testBit_lt_two_pow h
  rw [Nat.testBit_xor, Nat.testBit_or, Nat.testBit_two_pow]
  by_cases hi : n = i
  · subst hi; simp [hn]
  · simp [hi]

/-- From the sign bit up, clearing it by XOR is subtracting it. -/
theorem xor_two_pow_of_le_of_lt {n r : Nat} (hle : 2 ^ n ≤ r) (hlt : r < 2 ^ (n + 1)) : r ^^^ 2 ^ n = r - 2 ^ n := by
  obtain ⟨q, rfl⟩ := Nat.exists_eq_add_of_le' hle
  have hq : q < 2 ^ n := by omega
  rw [← xor_two_pow_of_lt hq, Nat.xor_assoc, Nat.xor_self, Nat.xor_zero, xor_two_pow_of_lt hq, Nat.add_sub_cancel]

/-- In its domain `signExtend` is the two's complement reading of the low bits. -/
theorem signExtend_eq_toInt_ofNat {bitWidth : Nat} (h1 : 1 ≤ bitWidth) (h32 : bitWidth ≤ 32) (value : Nat) :
    signExtend value bitWidth = some (BitVec.ofNat bitWidth value).toInt := by
  obtain ⟨n, rfl⟩ := Nat.exists_eq_add_of_le' h1
  have hlt : value % 2 ^ (n + 1) < 2 ^ (n + 1) := Nat.mod_lt _ (Nat.two_pow_pos _)
  have hpow : 2 ^ (n + 1) = 2 * 2 ^ n := by rw [pow_succ, Nat.mul_comm]
  simp only [signExtend, Nat.one_shiftLeft, Nat.and_two_pow_sub_one_eq_mod, BitVec.toInt_eq_toNat_cond,
    BitVec.toNat_ofNat, Nat.add_sub_cancel, if_pos (And.intro h1 h32)]
  generalize value % 2 ^ (n + 1) = m at hlt ⊢
  by_cases hm : m < 2 ^ n
  · rw [xor_two_pow_of_lt hm, if_pos (by omega)]
    simp
  · rw [xor_two_pow_of_le_of_lt (by omega) hlt, if_neg (by omega), hpow]
    congr 1
    omega

theorem signExtend_eq_none {bitWidth : Nat} (h : bitWidth = 0 ∨ 32 < bitWidth) (value : Nat) :
    signExtend value bitWidth = none :=
  if_neg (by omega)

/-- `signExtend` reads the low `bitWidth` bits alone, whatever the width (R39 (c)). -/
theorem signExtend_congr {a b bitWidth : Nat} (h : a % 2 ^ bitWidth = b % 2 ^ bitWidth) :
    signExtend a bitWidth = signExtend b bitWidth := by
  simp only [signExtend, Nat.one_shiftLeft, Nat.and_two_pow_sub_one_eq_mod, h]

/-- The sign extension of a value that already has the width is its signed reading. -/
theorem signExtend_toNat {n : Nat} (h1 : 1 ≤ n) (h32 : n ≤ 32) (x : BitVec n) : signExtend x.toNat n = some (sext x) := by
  rw [signExtend_eq_toInt_ofNat h1 h32, BitVec.ofNat_toNat, BitVec.setWidth_eq]
  rfl

theorem signExtend_word_shift_twenty (w : Word) : signExtend (w.toNat >>> 20) 12 = some (immI w) := by
  rw [← show signExtend (immIField w).toNat 12 = some (immI w) from signExtend_toNat (by decide) (by decide) _]
  apply signExtend_congr
  rw [immIField, BitVec.extractLsb'_toNat, Nat.mod_mod]

/-- Settles O3: inside the domain by the signed reading of a bit vector, outside it by the guard. -/
theorem signExtendIsTheSignedReading : Obligations.SignExtendIsTheSignedReading := by
  refine ⟨fun value n h1 h32 => ⟨_, signExtend_eq_toInt_ofNat h1 h32 value, ?_, BitVec.le_toInt _, BitVec.toInt_lt⟩,
    fun value n h => signExtend_eq_none h value,
    fun w => ⟨signExtend_word_shift_twenty w, signExtend_toNat (by decide) (by decide) _,
      signExtend_toNat (by decide) (by decide) _, signExtend_toNat (by decide) (by decide) _⟩⟩
  obtain ⟨m, rfl⟩ := Nat.exists_eq_add_of_le' h1
  have hpow : 2 ^ (m + 1) = 2 * 2 ^ m := by rw [pow_succ, Nat.mul_comm]
  rw [BitVec.toInt_eq_toNat_cond, BitVec.toNat_ofNat, Nat.add_sub_cancel]
  push_cast
  congr 1
  rw [eq_iff_iff]
  omega

/-- A signed value that `w` bits can hold comes back from its encoding (R39 (a)). -/
theorem signExtend_emod_two_pow {w : Nat} {v : Int} (h1 : 1 ≤ w) (h32 : w ≤ 32) (hlo : -(2 ^ (w - 1) : Int) ≤ v)
    (hhi : v ≤ 2 ^ (w - 1) - 1) : signExtend (v % 2 ^ w).toNat w = some v := by
  have hpos : (0 : Int) < 2 ^ w := by positivity
  have hmod : ((v % 2 ^ w).toNat : Int) = v % 2 ^ w := Int.toNat_of_nonneg (Int.emod_nonneg _ hpos.ne')
  have henc : BitVec.ofNat w (v % 2 ^ w).toNat = BitVec.ofInt w v := by
    apply BitVec.eq_of_toInt_eq
    rw [BitVec.toInt_ofNat', BitVec.toInt_ofInt, hmod]
    exact_mod_cast Int.emod_bmod v (2 ^ w)
  rw [signExtend_eq_toInt_ofNat h1 h32, henc, BitVec.toInt_ofInt_eq_self h1 hlo (by omega)]

/-- Sign extension leaves the low bits as they were (R39 (d)). -/
theorem emod_two_pow_of_signExtend {value w : Nat} {r : Int} (h : signExtend value w = some r) :
    r % 2 ^ w = ((value % 2 ^ w : Nat) : Int) := by
  by_cases hw : 1 ≤ w ∧ w ≤ 32
  · obtain ⟨h1, h32⟩ := hw
    rw [signExtend_eq_toInt_ofNat h1 h32, Option.some.injEq, BitVec.toInt_ofNat'] at h
    rw [← h, Int.natCast_mod]
    exact_mod_cast Int.bmod_emod
  · rw [signExtend_eq_none (by omega)] at h
    cases h

/-- Settles O4: (a), (c) and (d) by the three laws above, the values of (b) by computing them. -/
theorem signExtendLaws : Obligations.SignExtendLaws :=
  ⟨fun _ _ => signExtend_emod_two_pow, by decide, by decide, by decide, fun _ _ _ => signExtend_congr,
    fun _ _ _ => emod_two_pow_of_signExtend⟩

/-! ## The gather lists (R41 to R46) -/

/-- Immediate bit `i` of a gathered value: the word bit a piece of the list brings there. -/
theorem testBit_gather (g : List GatherPiece) (w : Word) (i : Nat) :
    (gather g w).testBit i =
      g.any fun p => decide (p.dst ≤ i) && decide (i < p.dst + (p.hi - p.lo + 1)) && w.getLsbD (i - p.dst + p.lo) := by
  induction g with
  | nil => simp [gather]
  | cons p rest ih =>
    rw [gather, Nat.testBit_or, ih, List.any_cons, Nat.testBit_shiftLeft, Nat.testBit_and, Nat.testBit_shiftRight,
      Nat.one_shiftLeft, Nat.testBit_two_pow_sub_one, Nat.add_comm p.lo, BitVec.testBit_toNat]
    grind

/-- A list gathers a bit vector when each of its bits is the one a piece brings there. -/
theorem gather_eq_toNat {n : Nat} {g : List GatherPiece} {w : Word} {v : BitVec n}
    (h : ∀ i, (gather g w).testBit i = v.getLsbD i) : gather g w = v.toNat :=
  Nat.eq_of_testBit_eq fun i => (h i).trans (BitVec.testBit_toNat v).symm

theorem gather_gatherI (w : Word) : gather gatherI w = (immIField w).toNat :=
  gather_eq_toNat fun i => by
    rw [testBit_gather, immIField, BitVec.getLsbD_extractLsb']
    simp [gatherI, Nat.add_comm]

theorem gather_gatherS (w : Word) : gather gatherS w = (immSField w).toNat :=
  gather_eq_toNat fun i => by
    simp only [testBit_gather, getLsbD_immSField, gatherS, List.any_cons, List.any_nil]
    grind

theorem gather_gatherB (w : Word) : gather gatherB w = (immBField w).toNat :=
  gather_eq_toNat fun i => by
    simp only [testBit_gather, getLsbD_immBField, gatherB, List.any_cons, List.any_nil]
    grind

theorem gather_gatherU (w : Word) : gather gatherU w = (immUField w).toNat :=
  gather_eq_toNat fun i => by
    simp only [testBit_gather, getLsbD_immUField, gatherU, List.any_cons, List.any_nil]
    grind

theorem gather_gatherJ (w : Word) : gather gatherJ w = (immJField w).toNat :=
  gather_eq_toNat fun i => by
    simp only [testBit_gather, getLsbD_immJField, gatherJ, List.any_cons, List.any_nil]
    grind

/-! ## The range, the sign and the forced zeros of an immediate (R41 to R46) -/

/-- A nonempty bit vector reads negative exactly when its top bit is set. -/
theorem sext_neg_iff {n : Nat} (v : BitVec (n + 1)) : sext v < 0 ↔ v.getLsbD n = true := by
  have h := BitVec.msb_eq_toInt (x := v)
  rw [BitVec.msb_eq_getLsbD_last, Nat.add_sub_cancel] at h
  rw [h, decide_eq_true_iff, sext]

/-- Zeros appended below a bit vector scale its signed reading. -/
theorem sext_append_zero {m : Nat} (v : BitVec (m + 1)) (k : Nat) : sext (v ++ 0#k) = 2 ^ k * sext v := by
  rw [sext, BitVec.toInt_append]
  simp [sext]

theorem immI_neg_iff (w : Word) : immI w < 0 ↔ w.getLsbD 31 = true := by
  rw [immI, sext_neg_iff, immIField, BitVec.getLsbD_extractLsb']
  simp

theorem immS_neg_iff (w : Word) : immS w < 0 ↔ w.getLsbD 31 = true := by
  rw [immS, sext_neg_iff, getLsbD_immSField]
  simp

theorem immB_neg_iff (w : Word) : immB w < 0 ↔ w.getLsbD 31 = true := by
  rw [immB, sext_neg_iff, getLsbD_immBField]
  simp

theorem immJ_neg_iff (w : Word) : immJ w < 0 ↔ w.getLsbD 31 = true := by
  rw [immJ, sext_neg_iff, getLsbD_immJField]
  simp

/-- A B-immediate is twice a signed 12-bit number. -/
theorem immB_eq_two_mul (w : Word) : ∃ v : BitVec 12, immB w = 2 * sext v :=
  ⟨_, sext_append_zero (w.extractLsb' 31 1 ++ w.extractLsb' 7 1 ++ w.extractLsb' 25 6 ++ w.extractLsb' 8 4) 1⟩

/-- A J-immediate is twice a signed 20-bit number. -/
theorem immJ_eq_two_mul (w : Word) : ∃ v : BitVec 20, immJ w = 2 * sext v :=
  ⟨_, sext_append_zero (w.extractLsb' 31 1 ++ w.extractLsb' 12 8 ++ w.extractLsb' 20 1 ++ w.extractLsb' 21 10) 1⟩

theorem sext_twelve_bounds (v : BitVec 12) : -2048 ≤ sext v ∧ sext v ≤ 2047 :=
  ⟨BitVec.le_toInt v, Int.le_sub_one_of_lt BitVec.toInt_lt⟩

theorem sext_twenty_bounds (v : BitVec 20) : -524288 ≤ sext v ∧ sext v ≤ 524287 :=
  ⟨BitVec.le_toInt v, Int.le_sub_one_of_lt BitVec.toInt_lt⟩

theorem immB_even_and_bounds (w : Word) : -4096 ≤ immB w ∧ immB w ≤ 4094 ∧ immB w % 2 = 0 := by
  obtain ⟨v, hv⟩ := immB_eq_two_mul w
  have := sext_twelve_bounds v
  omega

theorem immJ_even_and_bounds (w : Word) : -1048576 ≤ immJ w ∧ immJ w ≤ 1048574 ∧ immJ w % 2 = 0 := by
  obtain ⟨v, hv⟩ := immJ_eq_two_mul w
  have := sext_twenty_bounds v
  omega

/-- The sign extension of a gathered immediate, from what the gather list collects. -/
theorem signExtend_gather {n : Nat} {g : List GatherPiece} {w : Word} {v : BitVec n} (h1 : 1 ≤ n) (h32 : n ≤ 32)
    (h : gather g w = v.toNat) : signExtend (gather g w) n = some (sext v) := by
  rw [h, signExtend_toNat h1 h32]

/-- Settles O5: each gather list collects the field whose signed reading the immediate is; the examples are computed. -/
theorem immediatesGatherAndExtend : Obligations.ImmediatesGatherAndExtend := by
  refine ⟨fun w => ⟨⟨rfl, signExtend_word_shift_twenty w, ?_, ?_⟩, ⟨rfl, rfl, ?_, ?_⟩, ⟨rfl, ?_, ?_⟩, ⟨rfl, ?_, ?_⟩⟩,
    by decide, by decide, by decide, by decide⟩
  · exact signExtend_gather (by decide) (by decide) (gather_gatherI w)
  · exact ⟨(sext_twelve_bounds _).1, (sext_twelve_bounds _).2, immI_neg_iff w⟩
  · exact signExtend_gather (by decide) (by decide) (gather_gatherS w)
  · exact ⟨(sext_twelve_bounds _).1, (sext_twelve_bounds _).2, immS_neg_iff w⟩
  · exact signExtend_gather (by decide) (by decide) (gather_gatherB w)
  · obtain ⟨hlo, hhi, heven⟩ := immB_even_and_bounds w
    exact ⟨hlo, hhi, heven, immB_neg_iff w⟩
  · exact signExtend_gather (by decide) (by decide) (gather_gatherJ w)
  · obtain ⟨hlo, hhi, heven⟩ := immJ_even_and_bounds w
    exact ⟨hlo, hhi, heven, immJ_neg_iff w⟩

/-! ## The U-immediate under both readings (R44, R119, D7) -/

/-- The U-immediate's bits are the word with its low 12 bits cleared. -/
theorem immUField_eq_and (w : Word) : immUField w = w &&& 0xFFFFF000 := by
  have hmask : ∀ i < 32, (0xFFFFF000 : Word).getLsbD i = decide (12 ≤ i) := by decide
  apply BitVec.eq_of_getLsbD_eq
  intro i hi
  rw [getLsbD_immUField, BitVec.getLsbD_and, hmask i hi, Bool.and_comm]

theorem immU_signed (pairExact : Bool) (w : Word) : immU ⟨true, pairExact⟩ w = sext (immUField w) := rfl

theorem immU_unsigned (pairExact : Bool) (w : Word) : immU ⟨false, pairExact⟩ w = ((immUField w).toNat : Int) := rfl

theorem immUField_neg_iff (w : Word) : sext (immUField w) < 0 ↔ w.getLsbD 31 = true := by
  rw [sext_neg_iff, getLsbD_immUField]
  simp

theorem sext_immUField (w : Word) : sext (immUField w) = 4096 * sext (w.extractLsb' 12 20) :=
  sext_append_zero (w.extractLsb' 12 20) 12

theorem toNat_immUField (w : Word) : (immUField w).toNat = 4096 * (w.extractLsb' 12 20).toNat := by
  rw [immUField, BitVec.toNat_append]
  simp [Nat.shiftLeft_eq, Nat.mul_comm]

/-- The two readings differ by `2 ^ 32` exactly when the signed one is negative. -/
theorem toNat_eq_sext_add (v : BitVec 32) : (v.toNat : Int) = sext v + if v.getLsbD 31 then 2 ^ 32 else 0 := by
  have h := sext_neg_iff v
  have hlt := v.isLt
  have hs : sext v = if 2 * v.toNat < 2 ^ 32 then (v.toNat : Int) else v.toNat - (2 ^ 32 : Nat) := BitVec.toInt_eq_toNat_cond v
  split at hs
  · rw [if_neg (mt h.2 (by omega))]
    omega
  · rw [if_pos (h.1 (by omega))]
    omega

/-- Settles O6: both readings are 4096 times a reading of `word[31:12]`. -/
theorem upperImmediateUnderBothReadings : Obligations.UpperImmediateUnderBothReadings := by
  intro w pairExact
  have h31 : (immUField w).getLsbD 31 = w.getLsbD 31 := by rw [getLsbD_immUField]; rfl
  have hs := sext_immUField w
  have hu := toNat_immUField w
  obtain ⟨hlo, hhi⟩ := sext_twenty_bounds (w.extractLsb' 12 20)
  have hlt : (w.extractLsb' 12 20).toNat < 1048576 := (w.extractLsb' 12 20).isLt
  simp only [immU_signed, immU_unsigned, ← immUField_eq_and]
  refine ⟨trivial, gather_gatherU w, rfl, trivial, by omega, by omega, by omega, by omega, by omega, by omega,
    immUField_neg_iff w, ?_⟩
  rw [← h31]
  exact toNat_eq_sext_add _

/-! ## Each layout uses each bit once (R46 (f)) -/

/-- When a layout fills no immediate bit twice, each bit a piece fills is the word bit that piece brings there. -/
theorem testBit_gather_of_mem {g : List GatherPiece} (hg : (gatherTargets g).Nodup) {p : GatherPiece} (hp : p ∈ g) {i : Nat}
    (hi : i ∈ List.range' p.dst (p.hi - p.lo + 1)) (w : Word) : (gather g w).testBit i = w.getLsbD (i - p.dst + p.lo) := by
  have hdisj := (List.nodup_flatMap.1 hg).2
  have hsymm : Std.Symm (Function.onFun List.Disjoint fun p : GatherPiece => List.range' p.dst (p.hi - p.lo + 1)) :=
    ⟨fun _ _ h => List.Disjoint.symm h⟩
  have honly : ∀ q ∈ g, i ∈ List.range' q.dst (q.hi - q.lo + 1) → q = p := by
    intro q hq hiq
    by_contra hne
    exact hdisj.forall hq hp hne hiq hi
  rw [testBit_gather, Bool.eq_iff_iff, List.any_eq_true]
  simp only [List.mem_range'_1] at hi honly
  constructor
  · rintro ⟨q, hq, hbit⟩
    simp only [Bool.and_eq_true, decide_eq_true_iff] at hbit
    obtain ⟨hrange, hbit⟩ := hbit
    rwa [honly q hq hrange] at hbit
  · exact fun hbit => ⟨p, hp, by simp [hi, hbit]⟩

/-- The value gathered depends on every word bit the layout reads. -/
theorem gather_flip_ne {g : List GatherPiece} (hg : (gatherTargets g).Nodup) {b : Nat} (hb : b ∈ gatherSources g) (h32 : b < 32)
    (w : Word) : gather g (w ^^^ (1#32 <<< b)) ≠ gather g w := by
  obtain ⟨p, hp, hbp⟩ := List.mem_flatMap.1 hb
  rw [List.mem_range'_1] at hbp
  have hi : b - p.lo + p.dst ∈ List.range' p.dst (p.hi - p.lo + 1) := by
    rw [List.mem_range'_1]
    omega
  have hback : b - p.lo + p.dst - p.dst + p.lo = b := by omega
  intro heq
  have hbit := congrArg (fun n => n.testBit (b - p.lo + p.dst)) heq
  simp only [testBit_gather_of_mem hg hp hi, hback] at hbit
  simp [h32] at hbit

/-- Settles O7: no layout fills an immediate bit twice, so a flipped word bit shows in the one bit it is brought to. -/
theorem gatherLayoutsUseEachBitOnce : Obligations.GatherLayoutsUseEachBitOnce := by
  have hlayouts : ∀ g ∈ [gatherI, gatherS, gatherB, gatherU, gatherJ],
      (gatherTargets g).Nodup ∧ ∀ b ∈ gatherSources g, b < 32 := by decide
  refine ⟨by decide, fun g hg w b hb => ?_⟩
  obtain ⟨hnodup, h32⟩ := hlayouts g hg
  exact gather_flip_ne hnodup hb (h32 b hb) w

/-! ## The forced zero bits of a decoded instruction (R43 to R46) -/

@[simp] theorem evenImm_immBField (w : Word) : evenImm (immBField w) = true := by
  rw [evenImm, getLsbD_immBField]
  rfl

@[simp] theorem evenImm_immJField (w : Word) : evenImm (immJField w) = true := by
  rw [evenImm, getLsbD_immJField]
  rfl

@[simp] theorem upperImm_immUField (w : Word) : upperImm (immUField w) = true := by
  rw [upperImm, beq_iff_eq]
  exact BitVec.extractLsb'_append_eq_right

/-- Settles O11: the three formats with forced zeros gather them; the others are accepted as they are. -/
theorem decodedInstructionsAreWellFormed : Obligations.DecodedInstructionsAreWellFormed := by
  intro cfg w
  unfold decode
  cases dispatch cfg w
  case beq | bne | blt | bge | bltu | bgeu => exact evenImm_immBField w
  case jal => exact evenImm_immJField w
  case lui | auipc => exact upperImm_immUField w
  all_goals rfl

end Sys2Proof

namespace Sys2Proof.Machine

/-! ## What a call drives, by the kind the dispatch chose -/

/-- A call with a recognised word leaves the state the claims call `after`. -/
theorem call_eq_next_after {s : State} {w : Word} {k : Kind} (hk : dispatch s.cfg w = k) (hne : k ≠ .unknown) :
    call w s = .next (Claims.after (s.present w) k k.template ((printedImm s.cfg k w).map bv32)
      (renderWord k ((printedImm s.cfg k w).getD 0) w)) := by
  subst hk
  have hknown : knownOf (dispatch s.cfg w) = true := by simpa [knownOf] using hne
  rw [call_eq_next_blockOutputs]
  cases himm : printedImm s.cfg (dispatch s.cfg w) w <;>
    simp [Claims.after, blockOutputs, renders, hknown, himm, immPortOf, immValidOf, State.present]

theorem textIArith_eq_rrvText (m : String) (rd rs1 : RegIdx) (v : Int) :
    textIArith m.toList rd rs1 v = Claims.rrvText m rd rs1 v := by
  simp [textIArith, Claims.rrvText, Claims.str, space, comma]

/-- A call with a word of opcode 0x13 that prints `v` (R80). -/
theorem call_eq_next_after_iArith {s : State} {w : Word} {k : Kind} {m : String} {v : Int} (hk : dispatch s.cfg w = k)
    (ht : k.template = .IARITH) (hm : k.mnemonic = m.toList) (hv : printedImm s.cfg k w = some v) :
    call w s = .next (Claims.after (s.present w) k .IARITH (some (bv32 v)) (Claims.rrvText m (rdOf w) (rs1Of w) v)) := by
  have hne : k ≠ .unknown := fun h => by rw [h] at ht; cases ht
  rw [call_eq_next_after hk hne, ht, hv, ← textIArith_eq_rrvText, ← hm]
  simp only [renderWord, ht]
  rfl

/-! ## The shifts of opcode 0x13 (R47, R80, R87 to R89) -/

theorem bv32_shamtValue (shamt : BitVec 5) : bv32 (shamtValue shamt) = shamt.setWidth 32 := by
  rw [bv32, shamtValue, BitVec.ofInt_natCast, BitVec.ofNat_toNat]

/-- Settles O8: the three kinds are found by the second level of opcode 0x13, and the masked immediate is the shift amount. -/
theorem shiftImmediatesAreMaskedForSraiOnly : Obligations.ShiftImmediatesAreMaskedForSraiOnly := by
  refine ⟨fun s w hop => ⟨fun h3 => ?_, fun h3 h7 => ?_, fun h3 h7 => ?_⟩, by decide⟩
  · have hk : dispatch s.cfg w = .slli := dispatch_of_fields hop h3 rfl
    exact call_eq_next_after_iArith hk rfl rfl rfl
  · have hk : dispatch s.cfg w = .srli := dispatch_of_fields hop h3 h7
    have himm : immI w = shamtValue (rs2Of w) := immI_of_funct7Of_eq_zero h7
    have hcall := call_eq_next_after_iArith (m := "srli") hk rfl rfl rfl
    rw [himm, bv32_shamtValue, ← himm] at hcall
    exact ⟨himm, hcall⟩
  · have hk : dispatch s.cfg w = .srai := (dispatch_of_fields hop h3 rfl).trans (if_neg h7)
    have hmask : bv32 (immI w) &&& 0x1F = (rs2Of w).setWidth 32 := bv32_immI_and_mask w
    have hprint : printedImm s.cfg .srai w = some (shamtValue (rs2Of w)) := congrArg some (immMasked_eq_shamtValue w)
    have hcall := call_eq_next_after_iArith (m := "srai") hk rfl rfl hprint
    rw [bv32_shamtValue, ← hmask] at hcall
    exact ⟨hmask, hcall⟩

end Sys2Proof.Machine

namespace Sys2Proof

open Sys2Proof.Machine

/-! ## What the masks of the opcode table keep of a word (R58) -/

@[simp] theorem rdOf_and (v w : Word) : rdOf (v &&& w) = rdOf v &&& rdOf w := by simp [rdOf, BitVec.extractLsb'_and]

@[simp] theorem rs1Of_and (v w : Word) : rs1Of (v &&& w) = rs1Of v &&& rs1Of w := by simp [rs1Of, BitVec.extractLsb'_and]

@[simp] theorem rs2Of_and (v w : Word) : rs2Of (v &&& w) = rs2Of v &&& rs2Of w := by simp [rs2Of, BitVec.extractLsb'_and]

/-- A mask laid out by fields masks each field. -/
theorem and_rWord (w : Word) (f7 : BitVec 7) (rs2 rs1 : RegIdx) (f3 : BitVec 3) (rd : RegIdx) (op : BitVec 7) :
    w &&& rWord f7 rs2 rs1 f3 rd op =
      rWord (funct7Of w &&& f7) (rs2Of w &&& rs2) (rs1Of w &&& rs1) (funct3Of w &&& f3) (rdOf w &&& rd) (opcodeOf w &&& op) := by
  rw [← rWord_fields (w &&& _)]
  simp

theorem and_opcodeMask (w : Word) : w &&& 0x0000007F = rWord 0 0 0 0 0 (opcodeOf w) := by
  rw [show (0x0000007F : Word) = rWord 0#7 0#5 0#5 0#3 0#5 (BitVec.allOnes 7) by decide, and_rWord]
  simp only [BitVec.and_zero, BitVec.and_allOnes]
  rfl

theorem and_funct3Mask (w : Word) : w &&& 0x0000707F = rWord 0 0 0 (funct3Of w) 0 (opcodeOf w) := by
  rw [show (0x0000707F : Word) = rWord 0#7 0#5 0#5 (BitVec.allOnes 3) 0#5 (BitVec.allOnes 7) by decide, and_rWord]
  simp only [BitVec.and_zero, BitVec.and_allOnes]
  rfl

theorem and_funct7Mask (w : Word) : w &&& 0xFE00707F = rWord (funct7Of w) 0 0 (funct3Of w) 0 (opcodeOf w) := by
  rw [show (0xFE00707F : Word) = rWord (BitVec.allOnes 7) 0#5 0#5 (BitVec.allOnes 3) 0#5 (BitVec.allOnes 7) by decide, and_rWord]
  simp only [BitVec.and_zero, BitVec.and_allOnes]
  rfl

/-! ## The dispatch reads no more of a word than a row tests (R48 to R55) -/

theorem dispatch_congr (cfg : Config) {v w : Word} (hop : opcodeOf v = opcodeOf w) (h3 : funct3Of v = funct3Of w)
    (h7 : funct7Of v = funct7Of w) : dispatch cfg v = dispatch cfg w :=
  dispatch_of_fields hop h3 h7

/-- The places of the dispatch where funct7 counts: R49's pairs and R51's right shifts. -/
def TestsFunct7 (op : BitVec 7) (f3 : BitVec 3) : Prop := op = 0x33 ∧ (f3 = 0 ∨ f3 = 5) ∨ op = 0x13 ∧ f3 = 5

theorem dispatchR_of_not_pair (cfg cfg' : Config) {f3 : BitVec 3} (h0 : f3 ≠ 0) (h5 : f3 ≠ 5) (f7 g7 : BitVec 7) :
    dispatchR cfg f3 f7 = dispatchR cfg' f3 g7 := by
  unfold dispatchR
  rw [if_neg h0, if_neg h0, if_neg h5, if_neg h5]

theorem dispatchOpImm_of_ne_five {f3 : BitVec 3} (h5 : f3 ≠ 5) (f7 g7 : BitVec 7) : dispatchOpImm f3 f7 = dispatchOpImm f3 g7 := by
  unfold dispatchOpImm
  rw [if_neg h5, if_neg h5]

/-- Elsewhere the opcode and funct3 decide. -/
theorem dispatch_congr_of_not_testsFunct7 (cfg : Config) {v w : Word} (hop : opcodeOf v = opcodeOf w) (h3 : funct3Of v = funct3Of w)
    (h : ¬ TestsFunct7 (opcodeOf w) (funct3Of w)) : dispatch cfg v = dispatch cfg w := by
  unfold TestsFunct7 at h
  rw [dispatch_of_fields hop h3 rfl]
  exact ite_congr rfl (fun h33 => dispatchR_of_not_pair _ _ (by tauto) (by tauto) _ _) fun _ =>
    ite_congr rfl (fun _ => rfl) fun _ => ite_congr rfl (fun h13 => dispatchOpImm_of_ne_five (by tauto) _ _) fun _ => rfl

/-- Four opcodes decide by themselves (R54, R55, D10). -/
theorem dispatch_congr_of_upperJump (cfg : Config) {v w : Word} (hop : opcodeOf v = opcodeOf w)
    (h : opcodeOf w ∈ [0x37#7, 0x17#7, 0x6F#7, 0x67#7]) : dispatch cfg v = dispatch cfg w := by
  rw [dispatch_of_fields hop rfl rfl, dispatch_of_fields rfl rfl rfl]
  simp only [List.mem_cons, List.not_mem_nil, or_false] at h
  rcases h with h | h | h | h <;> rw [h] <;> rfl

/-! ## From a row of the table to the dispatch (R57, R58) -/

/-- How much of a word each row tests. -/
theorem recognisedRows_shape : ∀ r ∈ recognisedRows,
    (r.mask = 0xFE00707F ∧ r.upperNonzero = false) ∨
    (r.mask = 0x0000707F ∧ r.upperNonzero = false ∧ ¬ TestsFunct7 (opcodeOf r.pattern) (funct3Of r.pattern)) ∨
    (r.mask = 0x0000007F ∧ r.upperNonzero = false ∧ opcodeOf r.pattern ∈ [0x37#7, 0x17#7, 0x6F#7, 0x67#7]) ∨
    r = ⟨.srai, 0x0000707F, 0x00005013, true⟩ := by
  unfold TestsFunct7
  decide

/-- Every pattern is a word of its row's kind, but `srai`'s, whose upper part is zero. -/
theorem dispatch_pattern (cfg : Config) {r : TableRow} (hr : r ∈ recognisedRows) (hup : r.upperNonzero = false) :
    dispatch cfg r.pattern = r.kind := by
  obtain ⟨signed, pairExact⟩ := cfg
  revert signed pairExact r
  decide

theorem holds_iff (r : TableRow) (w : Word) :
    r.holds w = true ↔ w &&& r.mask = r.pattern ∧ (r.upperNonzero = true → funct7Of w ≠ 0) := by
  cases h : r.upperNonzero <;> simp [TableRow.holds, TableRow.selects, h]

/-- The dispatch gives a row's kind to every word the row holds of. -/
theorem dispatch_of_holds (cfg : Config) {r : TableRow} {w : Word} (hr : r ∈ recognisedRows) (h : r.holds w = true) :
    dispatch cfg w = r.kind := by
  obtain ⟨hmask, hup⟩ := (holds_iff r w).1 h
  rcases recognisedRows_shape r hr with ⟨hm, hf⟩ | ⟨hm, hf, h7⟩ | ⟨hm, hf, hop⟩ | rfl
  · rw [hm, and_funct7Mask] at hmask
    rw [← dispatch_pattern cfg hr hf, ← hmask]
    exact dispatch_congr cfg (by simp) (by simp) (by simp)
  · rw [hm, and_funct3Mask] at hmask
    rw [← dispatch_pattern cfg hr hf]
    rw [← hmask] at h7 ⊢
    exact dispatch_congr_of_not_testsFunct7 cfg (by simp) (by simp) h7
  · rw [hm, and_opcodeMask] at hmask
    rw [← dispatch_pattern cfg hr hf]
    rw [← hmask] at hop ⊢
    exact dispatch_congr_of_upperJump cfg (by simp) hop
  · rw [and_funct3Mask] at hmask
    have hop : opcodeOf w = 0x13 := (opcodeOf_rWord ..).symm.trans (congrArg opcodeOf hmask)
    have h3 : funct3Of w = 5 := (funct3Of_rWord ..).symm.trans (congrArg funct3Of hmask)
    exact (dispatch_of_fields hop h3 rfl).trans (if_neg (hup rfl))

/-! ## From the dispatch to a row of the table -/

/-- Some row's whole condition holds of the word. -/
def InTable (w : Word) : Prop := ∃ r ∈ recognisedRows, r.holds w = true

/-- The table has a row with this mask and pattern and no further condition. -/
def HasPlainRow (mask pattern : Word) : Prop :=
  ∃ r ∈ recognisedRows, r.mask = mask ∧ r.pattern = pattern ∧ r.upperNonzero = false

theorem inTable_of_hasPlainRow {mask : Word} {w : Word} (h : HasPlainRow mask (w &&& mask)) : InTable w := by
  obtain ⟨r, hr, hm, hp, hup⟩ := h
  refine ⟨r, hr, (holds_iff r w).2 ⟨by rw [hm, hp], fun h => ?_⟩⟩
  rw [hup] at h
  cases h

theorem inTable_of_funct3Row {w : Word} {op : BitVec 7} (hop : opcodeOf w = op)
    (h : HasPlainRow 0x0000707F (rWord 0 0 0 (funct3Of w) 0 op)) : InTable w :=
  inTable_of_hasPlainRow (by rwa [and_funct3Mask, hop])

/-- Every funct3 that the second level of opcode 0x03 recognises has its row; the next four lemmas say the same of the other opcodes
with a second level. -/
theorem hasPlainRow_load : ∀ f3, dispatchLoad f3 ≠ .unknown → HasPlainRow 0x0000707F (rWord 0 0 0 f3 0 0x03) := by
  unfold HasPlainRow
  decide

theorem hasPlainRow_branch : ∀ f3, dispatchBranch f3 ≠ .unknown → HasPlainRow 0x0000707F (rWord 0 0 0 f3 0 0x63) := by
  unfold HasPlainRow
  decide

theorem hasPlainRow_store : ∀ f3, dispatchStore f3 ≠ .unknown → HasPlainRow 0x0000707F (rWord 0 0 0 f3 0 0x23) := by
  unfold HasPlainRow
  decide

theorem hasPlainRow_opImm : ∀ f3, f3 ≠ 5 → HasPlainRow 0x0000707F (rWord 0 0 0 f3 0 0x13) := by
  unfold HasPlainRow
  decide

theorem hasPlainRow_r : ∀ f3, f3 ≠ 0 → f3 ≠ 5 → HasPlainRow 0x0000707F (rWord 0 0 0 f3 0 0x33) := by
  unfold HasPlainRow
  decide

/-- The two rows of each of R49's pairs. -/
theorem hasPlainRow_pair : ∀ f3, f3 = 0 ∨ f3 = 5 → ∀ f7, f7 = 0x00 ∨ f7 = 0x20 →
    HasPlainRow 0xFE00707F (rWord f7 0 0 f3 0 0x33) := by
  unfold HasPlainRow
  decide

theorem hasPlainRow_upperJump : ∀ op ∈ [0x37#7, 0x17#7, 0x6F#7, 0x67#7], HasPlainRow 0x0000007F (rWord 0 0 0 0 0 op) := by
  unfold HasPlainRow
  decide

theorem inTable_of_upperJump {w : Word} (h : opcodeOf w ∈ [0x37#7, 0x17#7, 0x6F#7, 0x67#7]) : InTable w :=
  inTable_of_hasPlainRow (by rw [and_opcodeMask]; exact hasPlainRow_upperJump _ h)

/-- Opcode 0x13 has a row for every word; with funct3 5 it is `srli`'s or `srai`'s, by the upper part (90_conflicts.md C3). -/
theorem inTable_of_opImm {w : Word} (hop : opcodeOf w = 0x13) : InTable w := by
  by_cases h3 : funct3Of w = 5
  · by_cases h7 : funct7Of w = 0
    · refine ⟨⟨.srli, 0xFE00707F, 0x00005013, false⟩, by decide, (holds_iff _ _).2 ⟨?_, fun h => nomatch h⟩⟩
      rw [and_funct7Mask, hop, h3, h7]
      decide
    · refine ⟨⟨.srai, 0x0000707F, 0x00005013, true⟩, by decide, (holds_iff _ _).2 ⟨?_, fun _ => h7⟩⟩
      rw [and_funct3Mask, hop, h3]
      decide
  · exact inTable_of_funct3Row hop (hasPlainRow_opImm _ h3)

/-- The words that only `R_PAIR_EXACT` false recognises: `add` and `srl` with a funct7 that is neither of the pair's (D8). -/
def OnlyWithoutPairExact (cfg : Config) (w : Word) : Prop :=
  cfg.rPairExact = false ∧ opcodeOf w = 0x33 ∧ (funct3Of w = 0 ∧ dispatch cfg w = .add ∨ funct3Of w = 5 ∧ dispatch cfg w = .srl)

theorem dispatchR_zero_of_neither {cfg : Config} {f7 : BitVec 7} (h00 : f7 ≠ 0x00) (h20 : f7 ≠ 0x20) :
    dispatchR cfg 0 f7 = if cfg.rPairExact = false then .add else .unknown := by
  show (if f7 = 0x20 then Kind.sub else if f7 = 0x00 ∨ cfg.rPairExact = false then .add else .unknown) = _
  rw [if_neg h20]
  simp only [or_iff_right h00]

theorem dispatchR_five_of_neither {cfg : Config} {f7 : BitVec 7} (h00 : f7 ≠ 0x00) (h20 : f7 ≠ 0x20) :
    dispatchR cfg 5 f7 = if cfg.rPairExact = false then .srl else .unknown := by
  show (if f7 = 0x20 then Kind.sra else if f7 = 0x00 ∨ cfg.rPairExact = false then .srl else .unknown) = _
  rw [if_neg h20]
  simp only [or_iff_right h00]

theorem inTable_or_of_r {cfg : Config} {w : Word} (hop : opcodeOf w = 0x33) (h : dispatch cfg w ≠ .unknown) :
    InTable w ∨ OnlyWithoutPairExact cfg w := by
  have hd : dispatch cfg w = dispatchR cfg (funct3Of w) (funct7Of w) := dispatch_of_fields hop rfl rfl
  by_cases hpair : funct3Of w = 0 ∨ funct3Of w = 5
  · by_cases h7 : funct7Of w = 0x00 ∨ funct7Of w = 0x20
    · refine .inl (inTable_of_hasPlainRow (mask := 0xFE00707F) ?_)
      rw [and_funct7Mask, hop]
      exact hasPlainRow_pair _ hpair _ h7
    · rw [not_or] at h7
      obtain ⟨h00, h20⟩ := h7
      right
      rcases hpair with h3 | h3
      · rw [h3, dispatchR_zero_of_neither h00 h20] at hd
        split_ifs at hd with hx
        · exact ⟨hx, hop, .inl ⟨h3, hd⟩⟩
        · exact absurd hd h
      · rw [h3, dispatchR_five_of_neither h00 h20] at hd
        split_ifs at hd with hx
        · exact ⟨hx, hop, .inr ⟨h3, hd⟩⟩
        · exact absurd hd h
  · rw [not_or] at hpair
    obtain ⟨h0, h5⟩ := hpair
    exact .inl (inTable_of_funct3Row hop (hasPlainRow_r _ h0 h5))

/-- A recognised word is in the table, or is one that only the other value of `R_PAIR_EXACT` recognises. -/
theorem inTable_or_of_dispatch {cfg : Config} {w : Word} (h : dispatch cfg w ≠ .unknown) :
    InTable w ∨ OnlyWithoutPairExact cfg w := by
  by_cases h33 : opcodeOf w = 0x33
  · exact inTable_or_of_r h33 h
  · left
    unfold dispatch at h
    generalize hop : opcodeOf w = op at h h33
    split_ifs at h with h03 h13 h63 h23 h37 h17 h6F h67
    · exact inTable_of_funct3Row (hop.trans h03) (hasPlainRow_load _ h)
    · exact inTable_of_opImm (hop.trans h13)
    · exact inTable_of_funct3Row (hop.trans h63) (hasPlainRow_branch _ h)
    · exact inTable_of_funct3Row (hop.trans h23) (hasPlainRow_store _ h)
    · exact inTable_of_upperJump (by rw [hop, h37]; decide)
    · exact inTable_of_upperJump (by rw [hop, h17]; decide)
    · exact inTable_of_upperJump (by rw [hop, h6F]; decide)
    · exact inTable_of_upperJump (by rw [hop, h67]; decide)
    · exact absurd rfl h

/-! ## The table and the dispatch agree (R57, R58, R62) -/

/-- Two rows of one kind are the same row. -/
theorem eq_of_kind_eq {r q : TableRow} (hr : r ∈ recognisedRows) (hq : q ∈ recognisedRows) (h : r.kind = q.kind) : r = q :=
  List.inj_on_of_nodup_map (f := TableRow.kind) (by decide) hr hq h

theorem kind_ne_unknown : ∀ r ∈ recognisedRows, r.kind ≠ .unknown := by decide

theorem inTable_of_dispatch {cfg : Config} {w : Word} (hx : cfg.rPairExact = true) (h : dispatch cfg w ≠ .unknown) : InTable w := by
  rcases inTable_or_of_dispatch h with hin | ⟨hx', -⟩
  · exact hin
  · rw [hx] at hx'
    cases hx'

theorem holds_iff_dispatch_eq {cfg : Config} {r : TableRow} {w : Word} (hx : cfg.rPairExact = true) (hr : r ∈ recognisedRows) :
    r.holds w = true ↔ dispatch cfg w = r.kind := by
  refine ⟨dispatch_of_holds cfg hr, fun h => ?_⟩
  obtain ⟨q, hq, hqw⟩ := inTable_of_dispatch hx (h ▸ kind_ne_unknown r hr)
  have hkind : q.kind = r.kind := (dispatch_of_holds cfg hq hqw).symm.trans h
  rwa [eq_of_kind_eq hq hr hkind] at hqw

/-- Rows that hold of one word have one kind, the one the dispatch gives it, and no kind has two rows. -/
theorem eq_of_holds {r q : TableRow} {w : Word} (hr : r ∈ recognisedRows) (hq : q ∈ recognisedRows) (hrw : r.holds w = true)
    (hqw : q.holds w = true) : r = q :=
  eq_of_kind_eq hr hq ((dispatch_of_holds blockConfig hr hrw).symm.trans (dispatch_of_holds blockConfig hq hqw))

/-- Settles O13: the dispatch gives a word one kind, so one row at most holds of it. -/
theorem noTwoRowsHoldOfOneWord : Obligations.NoTwoRowsHoldOfOneWord :=
  ⟨by decide, by decide, fun _ _ _ => eq_of_holds⟩

/-- In the table's order `srli` is asked before `srai`, so `srai` is chosen only with a nonzero upper part. -/
theorem holds_of_find?_eq_some {r : TableRow} {w : Word} (h : recognisedRows.find? (fun q => q.selects w) = some r) :
    r.holds w = true := by
  have hselects : r.selects w = true := by simpa using List.find?_some h
  rcases recognisedRows_shape r (List.mem_of_find?_eq_some h) with ⟨-, hup⟩ | ⟨-, hup, -⟩ | ⟨-, hup, -⟩ | rfl
  · simp [TableRow.holds, hselects, hup]
  · simp [TableRow.holds, hselects, hup]
  · simp [TableRow.holds, hselects, hup]
  · obtain ⟨-, i, hi, hget, hbefore⟩ := List.find?_eq_some_iff_getElem.1 h
    have horder : ∀ i (hi : i < recognisedRows.length),
        recognisedRows[i] = ⟨.srai, 0x0000707F, 0x00005013, true⟩ → 22 < i := by decide
    have hsrli : (!(w &&& 0xFE00707F == 0x00005013)) = true := hbefore 22 (horder i hi hget)
    have hsrai : w &&& 0x0000707F = 0x00005013 := beq_iff_eq.1 hselects
    refine (holds_iff _ w).2 ⟨hsrai, fun _ h7 => ?_⟩
    rw [and_funct7Mask, h7] at hsrli
    rw [and_funct3Mask] at hsrai
    rw [hsrai] at hsrli
    cases hsrli

theorem tableKind_eq_find? (w : Word) :
    tableKind w = ((recognisedRows.find? (fun r => r.selects w)).map TableRow.kind).getD .unknown := by
  unfold tableKind opcodeTable
  rw [List.find?_append]
  cases recognisedRows.find? (fun r => r.selects w) <;> simp [TableRow.selects]

theorem dispatch_eq_tableKind {cfg : Config} (hx : cfg.rPairExact = true) (w : Word) : dispatch cfg w = tableKind w := by
  rw [tableKind_eq_find?]
  cases hfind : recognisedRows.find? (fun r => r.selects w) with
  | some r => exact dispatch_of_holds cfg (List.mem_of_find?_eq_some hfind) (holds_of_find?_eq_some hfind)
  | none =>
    by_contra h
    obtain ⟨q, hq, hqw⟩ := inTable_of_dispatch hx h
    have hselects : q.selects w = true := (Bool.and_eq_true_iff.1 hqw).1
    exact List.find?_eq_none.1 hfind q hq hselects

/-- Settles O12: the first row that selects a word holds of it, and the dispatch gives every word the kind of the row that holds. -/
theorem dispatchFollowsTheOpcodeTable : Obligations.DispatchFollowsTheOpcodeTable :=
  ⟨fun _ w hx => dispatch_eq_tableKind hx w, fun _ _ _ hx hr => holds_iff_dispatch_eq hx hr⟩

/-! ## A word's operands laid out again (R40): each format puts every bit back where it was read -/

theorem iWord_operands (w : Word) (f3 : BitVec 3) (op : BitVec 7) :
    iWord (immIField w) (rs1Of w) f3 (rdOf w) op = rWord (funct7Of w) (rs2Of w) (rs1Of w) f3 (rdOf w) op := by
  rw [immIField_eq_append]
  rfl

theorem sWord_operands (w : Word) (f3 : BitVec 3) (op : BitVec 7) :
    sWord (immSField w) (rs2Of w) (rs1Of w) f3 op = rWord (funct7Of w) (rs2Of w) (rs1Of w) f3 (rdOf w) op := by
  apply BitVec.eq_of_getLsbD_eq
  intro i hi
  simp only [getLsbD_sWord, getLsbD_rWord, BitVec.getLsbD_extractLsb', getLsbD_immSField, funct7Of, rdOf]
  grind

theorem bWord_operands (w : Word) (f3 : BitVec 3) (op : BitVec 7) :
    bWord (immBField w) (rs2Of w) (rs1Of w) f3 op = rWord (funct7Of w) (rs2Of w) (rs1Of w) f3 (rdOf w) op := by
  apply BitVec.eq_of_getLsbD_eq
  intro i hi
  simp only [getLsbD_bWord, getLsbD_rWord, BitVec.getLsbD_extractLsb', getLsbD_immBField, funct7Of, rdOf]
  grind

theorem uWord_operands (w : Word) (op : BitVec 7) :
    uWord (immUField w) (rdOf w) op = rWord (funct7Of w) (rs2Of w) (rs1Of w) (funct3Of w) (rdOf w) op := by
  apply BitVec.eq_of_getLsbD_eq
  intro i hi
  simp only [getLsbD_uWord, getLsbD_rWord, BitVec.getLsbD_extractLsb', getLsbD_immUField, funct7Of, rs2Of, rs1Of, funct3Of]
  grind

theorem jWord_operands (w : Word) (op : BitVec 7) :
    jWord (immJField w) (rdOf w) op = rWord (funct7Of w) (rs2Of w) (rs1Of w) (funct3Of w) (rdOf w) op := by
  apply BitVec.eq_of_getLsbD_eq
  intro i hi
  simp only [getLsbD_jWord, getLsbD_rWord, BitVec.getLsbD_extractLsb', getLsbD_immJField, funct7Of, rs2Of, rs1Of, funct3Of]
  grind

/-! ## Encoding a decoded word: what is fixed and what is kept (R40, R58) -/

/-- The bits that the layout of a kind writes without looking at the operands. -/
def Kind.fixedMask (k : Kind) : Word :=
  match k.template with
  | .R => 0xFE00707F
  | .IARITH => if k = .srli ∨ k = .srai then 0xFE00707F else 0x0000707F
  | .U | .J => 0x0000007F
  | _ => 0x0000707F

theorem rWord_keep (w : Word) (f7 : BitVec 7) (f3 : BitVec 3) (op : BitVec 7) :
    rWord f7 (rs2Of w) (rs1Of w) f3 (rdOf w) op =
      w &&& ~~~0xFE00707F ||| rWord f7 (rs2Of 0) (rs1Of 0) f3 (rdOf 0) op := by
  have hmask : ∀ i < 32, (0xFE00707F : Word).getLsbD i = decide (i < 7 ∨ 12 ≤ i ∧ i < 15 ∨ 25 ≤ i) := by decide
  apply BitVec.eq_of_getLsbD_eq
  intro i hi
  simp only [BitVec.getLsbD_or, BitVec.getLsbD_and, BitVec.getLsbD_not, getLsbD_rWord, rs2Of, rs1Of, rdOf,
    BitVec.getLsbD_extractLsb', BitVec.ofNat_eq_ofNat, BitVec.getLsbD_zero]
  grind

theorem rWord_keep_funct7 (w : Word) (f3 : BitVec 3) (op : BitVec 7) :
    rWord (funct7Of w) (rs2Of w) (rs1Of w) f3 (rdOf w) op =
      w &&& ~~~0x0000707F ||| rWord (funct7Of 0) (rs2Of 0) (rs1Of 0) f3 (rdOf 0) op := by
  have hmask : ∀ i < 32, (0x0000707F : Word).getLsbD i = decide (i < 7 ∨ 12 ≤ i ∧ i < 15) := by decide
  apply BitVec.eq_of_getLsbD_eq
  intro i hi
  simp only [BitVec.getLsbD_or, BitVec.getLsbD_and, BitVec.getLsbD_not, getLsbD_rWord, funct7Of, rs2Of, rs1Of, rdOf,
    BitVec.getLsbD_extractLsb', BitVec.ofNat_eq_ofNat, BitVec.getLsbD_zero]
  grind

theorem rWord_keep_all_but_opcode (w : Word) (op : BitVec 7) :
    rWord (funct7Of w) (rs2Of w) (rs1Of w) (funct3Of w) (rdOf w) op =
      w &&& ~~~0x0000007F ||| rWord (funct7Of 0) (rs2Of 0) (rs1Of 0) (funct3Of 0) (rdOf 0) op := by
  have hmask : ∀ i < 32, (0x0000007F : Word).getLsbD i = decide (i < 7) := by decide
  apply BitVec.eq_of_getLsbD_eq
  intro i hi
  simp only [BitVec.getLsbD_or, BitVec.getLsbD_and, BitVec.getLsbD_not, getLsbD_rWord, funct7Of, rs2Of, rs1Of, funct3Of,
    rdOf, BitVec.getLsbD_extractLsb', BitVec.ofNat_eq_ofNat, BitVec.getLsbD_zero]
  grind

theorem iWord_keep (w : Word) (f3 : BitVec 3) (op : BitVec 7) :
    iWord (immIField w) (rs1Of w) f3 (rdOf w) op = w &&& ~~~0x0000707F ||| iWord (immIField 0) (rs1Of 0) f3 (rdOf 0) op := by
  rw [iWord_operands, iWord_operands, rWord_keep_funct7]

theorem sWord_keep (w : Word) (f3 : BitVec 3) (op : BitVec 7) :
    sWord (immSField w) (rs2Of w) (rs1Of w) f3 op = w &&& ~~~0x0000707F ||| sWord (immSField 0) (rs2Of 0) (rs1Of 0) f3 op := by
  rw [sWord_operands, sWord_operands, rWord_keep_funct7]

theorem bWord_keep (w : Word) (f3 : BitVec 3) (op : BitVec 7) :
    bWord (immBField w) (rs2Of w) (rs1Of w) f3 op = w &&& ~~~0x0000707F ||| bWord (immBField 0) (rs2Of 0) (rs1Of 0) f3 op := by
  rw [bWord_operands, bWord_operands, rWord_keep_funct7]

theorem uWord_keep (w : Word) (op : BitVec 7) :
    uWord (immUField w) (rdOf w) op = w &&& ~~~0x0000007F ||| uWord (immUField 0) (rdOf 0) op := by
  rw [uWord_operands, uWord_operands, rWord_keep_all_but_opcode]

theorem jWord_keep (w : Word) (op : BitVec 7) :
    jWord (immJField w) (rdOf w) op = w &&& ~~~0x0000007F ||| jWord (immJField 0) (rdOf 0) op := by
  rw [jWord_operands, jWord_operands, rWord_keep_all_but_opcode]

/-- Encoding the operands that a kind takes from a word keeps every bit of the word but the kind's fixed ones. -/
theorem encode_instrOfKind {k : Kind} (hk : k ≠ .unknown) (w : Word) :
    encode (instrOfKind k w) = w &&& ~~~k.fixedMask ||| encode (instrOfKind k 0) := by
  cases k
  case unknown => exact absurd rfl hk
  case add | sub | sll | slt | sltu | xor | srl | sra | or | and | srli | srai => exact rWord_keep w _ _ _
  case beq | bne | blt | bge | bltu | bgeu => exact bWord_keep w _ _
  case sb | sh | sw => exact sWord_keep w _ _
  case lui | auipc => exact uWord_keep w _
  case jal => exact jWord_keep w _
  all_goals exact iWord_keep w _ _

/-- Off the ignored bits, a row tests exactly the bits its kind's layout fixes, and for the values the encoder writes there. -/
theorem fixedMask_of_row (cfg : Config) {r : TableRow} (hr : r ∈ recognisedRows) :
    r.kind.fixedMask &&& ~~~Claims.ignoredBits cfg r.kind = r.mask &&& ~~~Claims.ignoredBits cfg r.kind ∧
    encode (instrOfKind r.kind 0) &&& ~~~Claims.ignoredBits cfg r.kind = r.pattern &&& ~~~Claims.ignoredBits cfg r.kind := by
  obtain ⟨signed, pairExact⟩ := cfg
  revert signed pairExact r
  decide

/-- A word that only `R_PAIR_EXACT` false recognises has the pattern of the first row of its pair but for funct7. -/
theorem exists_row_of_onlyWithoutPairExact {cfg : Config} {w : Word} (h : OnlyWithoutPairExact cfg w) :
    ∃ r ∈ recognisedRows, r.kind = dispatch cfg w ∧ r.mask = 0xFE00707F ∧ Claims.ignoredBits cfg r.kind = 0xFE000000 ∧
      w &&& 0x0000707F = r.pattern := by
  obtain ⟨hx, hop, ⟨h3, hadd⟩ | ⟨h3, hsrl⟩⟩ := h
  · refine ⟨⟨.add, 0xFE00707F, 0x00000033, false⟩, by decide, hadd.symm, rfl, by simp [Claims.ignoredBits, hx], ?_⟩
    rw [and_funct3Mask, hop, h3]
    decide
  · refine ⟨⟨.srl, 0xFE00707F, 0x00005033, false⟩, by decide, hsrl.symm, rfl, by simp [Claims.ignoredBits, hx], ?_⟩
    rw [and_funct3Mask, hop, h3]
    decide

/-- A recognised word has the pattern of its kind's row in the bits that are not ignored. -/
theorem exists_row_off_ignoredBits {cfg : Config} {w : Word} (h : dispatch cfg w ≠ .unknown) :
    ∃ r ∈ recognisedRows, r.kind = dispatch cfg w ∧
      w &&& r.mask &&& ~~~Claims.ignoredBits cfg r.kind = r.pattern &&& ~~~Claims.ignoredBits cfg r.kind := by
  rcases inTable_or_of_dispatch h with ⟨r, hr, hrw⟩ | hpair
  · refine ⟨r, hr, (dispatch_of_holds cfg hr hrw).symm, ?_⟩
    rw [((holds_iff r w).1 hrw).1]
  · obtain ⟨r, hr, hkind, hm, hignored, hw⟩ := exists_row_of_onlyWithoutPairExact hpair
    have hmasks : (0xFE00707F : Word) &&& ~~~0xFE000000 = 0x0000707F &&& ~~~0xFE000000 := by decide
    refine ⟨r, hr, hkind, ?_⟩
    rw [hm, hignored, ← hw, BitVec.and_assoc, BitVec.and_assoc, hmasks]

/-- A word laid out as some bits of `w` over a base agrees with `w` where `w` has the base's values in the other bits. -/
theorem and_not_eq_of_fixed {v w fixed base mask pattern ignored : Word} (hv : v = w &&& ~~~fixed ||| base)
    (hfixed : fixed &&& ~~~ignored = mask &&& ~~~ignored) (hbase : base &&& ~~~ignored = pattern &&& ~~~ignored)
    (hw : w &&& mask &&& ~~~ignored = pattern &&& ~~~ignored) : v &&& ~~~ignored = w &&& ~~~ignored := by
  have hfill : base &&& ~~~ignored = w &&& fixed &&& ~~~ignored := by
    rw [hbase, ← hw, BitVec.and_assoc, BitVec.and_assoc, hfixed]
  apply BitVec.eq_of_getLsbD_eq
  intro i hi
  have hbit := congrArg (fun x => x.getLsbD i) hfill
  simp only [hv, BitVec.getLsbD_and, BitVec.getLsbD_or, BitVec.getLsbD_not, hi, decide_true, Bool.true_and] at hbit ⊢
  rw [Bool.and_or_distrib_right, hbit]
  cases w.getLsbD i <;> cases fixed.getLsbD i <;> simp

/-- Settles O10: the encoder keeps the operand bits and writes the fixed ones as the row's pattern has them. -/
theorem encodeOfDecodeKeepsTheTestedBits : Obligations.EncodeOfDecodeKeepsTheTestedBits := by
  intro cfg w h
  obtain ⟨r, hr, hkind, hw⟩ := exists_row_off_ignoredBits h
  obtain ⟨hfixed, hbase⟩ := fixedMask_of_row cfg hr
  unfold decode
  rw [← hkind] at h ⊢
  exact and_not_eq_of_fixed (encode_instrOfKind h w) hfixed hbase hw

end Sys2Proof

namespace Sys2Proof.Machine

/-! ## A text determines its operands (R113 to R117) -/

/-- The digits of a numeral, read back, are the number (R114). -/
theorem decimalValue_udec (n : Nat) : Claims.decimalValue (udec n) = n := by
  induction n using Nat.strongRecOn with
  | _ n ih =>
    by_cases h : n < 10
    · rw [udec_of_lt h]
      simp [Claims.decimalValue, digit_toNat h]
    · have hlast : n % 10 < 10 := Nat.mod_lt _ (by decide)
      have hvalue := ih (n / 10) (by omega)
      rw [udec_of_ge (by omega), Claims.decimalValue, List.foldl_append, ← Claims.decimalValue, hvalue]
      simp only [List.foldl_cons, List.foldl_nil, digit_toNat hlast]
      omega

theorem udec_injective : Function.Injective udec :=
  Function.LeftInverse.injective decimalValue_udec

/-- A character that is no digit stands in no numeral. -/
theorem notMem_udec {c : Char} (hc : c.toNat < 0x30 ∨ 0x39 < c.toNat) (n : Nat) : c ∉ udec n := by
  intro hmem
  obtain ⟨d, hd, rfl⟩ := udec_digits n c hmem
  rw [digit_toNat hd] at hc
  omega

theorem sdec_injective : Function.Injective sdec := by
  have hminus : ∀ n t, udec n ≠ '-' :: t := fun n t h => notMem_udec (c := '-') (by decide) n (h ▸ List.mem_cons_self)
  intro i j h
  by_cases hi : 0 ≤ i <;> by_cases hj : 0 ≤ j
  · rw [sdec_of_nonneg hi, sdec_of_nonneg hj] at h
    have := udec_injective h
    omega
  · rw [sdec_of_nonneg hi, sdec_of_neg (by omega)] at h
    exact absurd h (hminus _ _)
  · rw [sdec_of_neg (by omega), sdec_of_nonneg hj] at h
    exact absurd h.symm (hminus _ _)
  · rw [sdec_of_neg (by omega), sdec_of_neg (by omega)] at h
    have := udec_injective (List.cons.inj h).2
    omega

theorem notMem_sdec {c : Char} (hc : c.toNat < 0x30 ∨ 0x39 < c.toNat) (hminus : c ≠ '-') (i : Int) : c ∉ sdec i := by
  unfold sdec
  split
  · exact notMem_udec hc _
  · simp [hminus, notMem_udec hc]

theorem reg_injective : Function.Injective reg := by
  intro i j h
  exact BitVec.eq_of_toNat_eq (udec_injective (List.cons.inj h).2)

theorem notMem_reg {c : Char} (hc : c.toNat < 0x30 ∨ 0x39 < c.toNat) (hx : c ≠ 'x') (i : RegIdx) : c ∉ reg i := by
  simp [reg, hx, notMem_udec hc]

/-- Two texts that agree, cut at the first place of a separator, agree in both parts. -/
theorem append_cons_inj_of_notMem_left {c : Char} {x y s t : Text} (hx : c ∉ x) (hy : c ∉ y)
    (h : x ++ c :: s = y ++ c :: t) : x = y ∧ s = t := by
  have hlen : x.length = y.length := by
    have hidx := congrArg (List.idxOf c) h
    rwa [List.idxOf_append_of_notMem hx, List.idxOf_append_of_notMem hy, List.idxOf_cons_self, List.idxOf_cons_self] at hidx
  obtain ⟨hxy, hst⟩ := List.append_inj h hlen
  exact ⟨hxy, (List.cons.inj hst).2⟩

/-- A register name before a separator is known. -/
theorem reg_comma_inj {a b : RegIdx} {s t : Text} (h : reg a ++ (comma ++ s) = reg b ++ (comma ++ t)) : a = b ∧ s = t := by
  simp only [comma, List.cons_append, List.nil_append] at h
  have hcomma : ∀ i, ',' ∉ reg i := notMem_reg (by decide) (by decide)
  obtain ⟨hreg, hrest⟩ := append_cons_inj_of_notMem_left (hcomma a) (hcomma b) h
  exact ⟨reg_injective hreg, (List.cons.inj hrest).2⟩

theorem memOperand_inj {u v : Int} {a b : RegIdx} (h : memOperand u a = memOperand v b) : u = v ∧ a = b := by
  simp only [memOperand, List.append_assoc, List.cons_append, List.nil_append] at h
  have hparen : ∀ i, '(' ∉ sdec i := notMem_sdec (by decide) (by decide)
  obtain ⟨himm, hrest⟩ := append_cons_inj_of_notMem_left (hparen u) (hparen v) h
  exact ⟨sdec_injective himm, reg_injective (List.append_cancel_right hrest)⟩

section
variable {m : Text} {a b c a' b' c' : RegIdx} {u v : Int}

theorem textR_inj (h : textR m a b c = textR m a' b' c') : a = a' ∧ b = b' ∧ c = c' := by
  simp only [textR, List.append_assoc, List.append_cancel_left_eq] at h
  obtain ⟨ha, h⟩ := reg_comma_inj h
  obtain ⟨hb, h⟩ := reg_comma_inj h
  exact ⟨ha, hb, reg_injective h⟩

theorem textIMem_inj (h : textIMem m a u b = textIMem m a' v b') : a = a' ∧ u = v ∧ b = b' := by
  simp only [textIMem, List.append_assoc, List.append_cancel_left_eq] at h
  obtain ⟨ha, h⟩ := reg_comma_inj h
  exact ⟨ha, memOperand_inj h⟩

theorem textIArith_inj (h : textIArith m a b u = textIArith m a' b' v) : a = a' ∧ b = b' ∧ u = v := by
  simp only [textIArith, List.append_assoc, List.append_cancel_left_eq] at h
  obtain ⟨ha, h⟩ := reg_comma_inj h
  obtain ⟨hb, h⟩ := reg_comma_inj h
  exact ⟨ha, hb, sdec_injective h⟩

theorem textU_inj (h : textU m a u = textU m a' v) : a = a' ∧ u = v := by
  simp only [textU, List.append_assoc, List.append_cancel_left_eq] at h
  obtain ⟨ha, h⟩ := reg_comma_inj h
  exact ⟨ha, sdec_injective h⟩

end

/-! ## A text determines its kind (R112, R120) -/

/-- What stands before the first space of a kind's texts. -/
def headOf (k : Kind) : Text := if k = .unknown then "unknown".toList else k.mnemonic

theorem notMem_headOf (k : Kind) : ' ' ∉ headOf k := by
  cases k <;> decide

theorem headOf_injective : Function.Injective headOf := by
  have hnodup : (Claims.templateColumn.map (fun p => headOf p.1)).Nodup := by decide
  intro j k h
  exact congrArg Prod.fst
    (List.inj_on_of_nodup_map hnodup (template_mem_templateColumn j) (template_mem_templateColumn k) h)

theorem eq_unknown_of_template {k : Kind} (h : k.template = .NONE) : k = .unknown := by
  cases k <;> simp [Kind.template] at h ⊢

/-- Every text is its head, a space and its operands; the two words of the unknown text are read in the same way. -/
theorem exists_renderWord_eq (k : Kind) (v : Int) (w : Word) : ∃ operands, renderWord k v w = headOf k ++ ' ' :: operands := by
  by_cases hk : k = .unknown
  · subst hk
    exact ⟨"instruction".toList, rfl⟩
  · unfold renderWord headOf
    rw [if_neg hk]
    cases ht : k.template
    case NONE => exact absurd (eq_unknown_of_template ht) hk
    all_goals
      simp only [textR, textIMem, textIArith, textB, textS, textU, textJ, space, List.append_assoc, List.cons_append,
        List.nil_append]
      exact ⟨_, rfl⟩

theorem dispatch_eq_of_renders_eq {cfg : Config} {v w : Word} (h : renders cfg v = renders cfg w) : dispatch cfg v = dispatch cfg w := by
  obtain ⟨s, hs⟩ := exists_renderWord_eq (dispatch cfg v) ((printedImm cfg (dispatch cfg v) v).getD 0) v
  obtain ⟨t, ht⟩ := exists_renderWord_eq (dispatch cfg w) ((printedImm cfg (dispatch cfg w) w).getD 0) w
  have hst : headOf (dispatch cfg v) ++ ' ' :: s = headOf (dispatch cfg w) ++ ' ' :: t := hs.symm.trans (h.trans ht)
  exact headOf_injective (append_cons_inj_of_notMem_left (notMem_headOf _) (notMem_headOf _) hst).1

/-! ## A text determines the decoded instruction -/

theorem sext_injective {n : Nat} : Function.Injective (sext (n := n)) := fun _ _ => BitVec.eq_of_toInt_eq

theorem shamtValue_injective : Function.Injective shamtValue := fun _ _ h => BitVec.eq_of_toNat_eq (Int.ofNat.inj h)

theorem upperValue_injective (cfg : Config) : Function.Injective (upperValue cfg) := by
  intro u v h
  unfold upperValue at h
  split at h
  · exact sext_injective h
  · exact BitVec.eq_of_toNat_eq (Int.ofNat.inj h)

/-- Of two words of one kind, equal texts print equal operands. -/
theorem instrOfKind_eq_of_text {cfg : Config} {k : Kind} {v w : Word}
    (h : instrText cfg (instrOfKind k v) = instrText cfg (instrOfKind k w)) : instrOfKind k v = instrOfKind k w := by
  cases k
  case unknown => rfl
  case add | sub | sll | slt | sltu | xor | srl | sra | or | and =>
    obtain ⟨hrd, hrs1, hrs2⟩ := textR_inj h
    simp only [instrOfKind, hrd, hrs1, hrs2]
  case lb | lh | lw | lbu | lhu | jalr =>
    obtain ⟨hrd, himm, hrs1⟩ := textIMem_inj h
    simp only [instrOfKind, hrd, sext_injective himm, hrs1]
  case addi | slti | sltiu | xori | ori | andi | slli =>
    obtain ⟨hrd, hrs1, himm⟩ := textIArith_inj h
    simp only [instrOfKind, hrd, hrs1, sext_injective himm]
  case srli | srai =>
    obtain ⟨hrd, hrs1, himm⟩ := textIArith_inj h
    simp only [instrOfKind, hrd, hrs1, shamtValue_injective himm]
  case beq | bne | blt | bge | bltu | bgeu =>
    obtain ⟨hrs1, hrs2, himm⟩ := textIArith_inj h
    simp only [instrOfKind, hrs1, hrs2, sext_injective himm]
  case sb | sh | sw =>
    obtain ⟨hrs2, himm, hrs1⟩ := textIMem_inj h
    simp only [instrOfKind, hrs2, sext_injective himm, hrs1]
  case lui | auipc =>
    obtain ⟨hrd, himm⟩ := textU_inj h
    simp only [instrOfKind, hrd, upperValue_injective cfg himm]
  case jal =>
    obtain ⟨hrd, himm⟩ := textU_inj h
    simp only [instrOfKind, hrd, sext_injective himm]

/-- Words with equal texts decode to the same instruction (R121). -/
theorem decode_eq_of_renders_eq {cfg : Config} {v w : Word} (h : renders cfg v = renders cfg w) : decode cfg v = decode cfg w := by
  have hk := dispatch_eq_of_renders_eq h
  rw [← instrText_decode, ← instrText_decode] at h
  unfold decode at h ⊢
  rw [hk] at h ⊢
  exact instrOfKind_eq_of_text h

/-! ## The ignored bits (R61) -/

/-- The outputs of a word but the Field Set are read off the decoded instruction. -/
theorem blockOutputs_eq_of_decode (cfg : Config) (w : Word) :
    blockOutputs cfg w =
      { fields := extractFields w
        known := knownOf (instrKind (decode cfg w))
        kind := instrKind (decode cfg w)
        tmpl := (instrKind (decode cfg w)).template
        imm := immPortOf (instrImm cfg (decode cfg w))
        immValid := immValidOf (instrImm cfg (decode cfg w))
        text := instrText cfg (decode cfg w) } := by
  rw [instrKind_decode, instrImm_decode, instrText_decode]
  rfl

/-- The kinds that may ignore the upper part print registers and the shift amount alone. -/
theorem instrOfKind_congr_of_registers {k : Kind} {v w : Word} (hk : k.template = .R ∨ k = .srai) (hrd : rdOf v = rdOf w)
    (hrs1 : rs1Of v = rs1Of w) (hrs2 : rs2Of v = rs2Of w) : instrOfKind k v = instrOfKind k w := by
  cases k <;> simp_all [instrOfKind, Kind.template]

/-- Which bits a kind ignores: the upper part, `jalr`'s funct3, or none. -/
theorem ignoredBits_cases (cfg : Config) (k : Kind) :
    (Claims.ignoredBits cfg k = 0xFE000000 ∧ (k.template = .R ∨ k = .srai)) ∨
    (Claims.ignoredBits cfg k = 0x00007000 ∧ k = .jalr) ∨ Claims.ignoredBits cfg k = 0x00000000 := by
  unfold Claims.ignoredBits
  split_ifs with hupper hpair hjalr
  · exact .inl ⟨rfl, by revert hupper; cases k <;> decide⟩
  · exact .inl ⟨rfl, by obtain ⟨hk, -⟩ := hpair; revert hk; cases k <;> decide⟩
  · exact .inr (.inl ⟨rfl, hjalr⟩)
  · exact .inr (.inr rfl)

theorem and_not_upperMask (w : Word) : w &&& ~~~0xFE000000 = rWord 0 (rs2Of w) (rs1Of w) (funct3Of w) (rdOf w) (opcodeOf w) := by
  rw [show ~~~(0xFE000000 : Word) = rWord 0#7 (BitVec.allOnes 5) (BitVec.allOnes 5) (BitVec.allOnes 3) (BitVec.allOnes 5)
    (BitVec.allOnes 7) by decide, and_rWord]
  simp only [BitVec.and_zero, BitVec.and_allOnes]
  rfl

theorem and_not_funct3Mask (w : Word) :
    w &&& ~~~0x00007000 = rWord (funct7Of w) (rs2Of w) (rs1Of w) 0 (rdOf w) (opcodeOf w) := by
  rw [show ~~~(0x00007000 : Word) = rWord (BitVec.allOnes 7) (BitVec.allOnes 5) (BitVec.allOnes 5) 0#3 (BitVec.allOnes 5)
    (BitVec.allOnes 7) by decide, and_rWord]
  simp only [BitVec.and_zero, BitVec.and_allOnes]
  rfl

/-- The ignored bits are no operands. -/
theorem instrOfKind_congr {cfg : Config} {k : Kind} {v w : Word}
    (h : v &&& ~~~Claims.ignoredBits cfg k = w &&& ~~~Claims.ignoredBits cfg k) : instrOfKind k v = instrOfKind k w := by
  rcases ignoredBits_cases cfg k with ⟨hi, hk⟩ | ⟨hi, rfl⟩ | hi
  · rw [hi, and_not_upperMask, and_not_upperMask] at h
    have hrd : rdOf v = rdOf w := by simpa using congrArg rdOf h
    have hrs1 : rs1Of v = rs1Of w := by simpa using congrArg rs1Of h
    have hrs2 : rs2Of v = rs2Of w := by simpa using congrArg rs2Of h
    exact instrOfKind_congr_of_registers hk hrd hrs1 hrs2
  · rw [hi, and_not_funct3Mask, and_not_funct3Mask] at h
    have hrd : rdOf v = rdOf w := by simpa using congrArg rdOf h
    have hrs1 : rs1Of v = rs1Of w := by simpa using congrArg rs1Of h
    have hrs2 : rs2Of v = rs2Of w := by simpa using congrArg rs2Of h
    have h7 : funct7Of v = funct7Of w := by simpa using congrArg funct7Of h
    simp only [instrOfKind, immIField_eq_append, hrd, hrs1, hrs2, h7]
  · rw [hi, show ~~~(0x00000000 : Word) = BitVec.allOnes 32 by decide, BitVec.and_allOnes, BitVec.and_allOnes] at h
    rw [h]

/-- With `R_PAIR_EXACT`, no row but `srai`'s tests an ignored bit. -/
theorem mask_of_row_off_ignoredBits {cfg : Config} (hx : cfg.rPairExact = true) {r : TableRow} (hr : r ∈ recognisedRows)
    (hsrai : r.kind ≠ .srai) : r.upperNonzero = false ∧ r.mask &&& ~~~Claims.ignoredBits cfg r.kind = r.mask := by
  obtain ⟨signed, pairExact⟩ := cfg
  cases hx
  revert signed r
  decide

/-- Changing ignored bits leaves the kind, but for `srai`, whose upper part may become zero. -/
theorem dispatch_eq_of_off_ignoredBits {cfg : Config} {v w : Word} (hx : cfg.rPairExact = true) (hne : dispatch cfg w ≠ .unknown)
    (hsrai : dispatch cfg w ≠ .srai)
    (h : v &&& ~~~Claims.ignoredBits cfg (dispatch cfg w) = w &&& ~~~Claims.ignoredBits cfg (dispatch cfg w)) :
    dispatch cfg v = dispatch cfg w := by
  obtain ⟨r, hr, hrw⟩ := inTable_of_dispatch hx hne
  have hkind := dispatch_of_holds cfg hr hrw
  rw [hkind] at h hsrai ⊢
  obtain ⟨hup, hmask⟩ := mask_of_row_off_ignoredBits hx hr hsrai
  have hvw : v &&& r.mask = w &&& r.mask := by
    rw [← hmask, BitVec.and_comm r.mask, ← BitVec.and_assoc, ← BitVec.and_assoc, h]
  refine dispatch_of_holds cfg hr ((holds_iff r v).2 ⟨hvw.trans ((holds_iff r w).1 hrw).1, fun h => ?_⟩)
  rw [hup] at h
  cases h

/-- Settles O17: outputs and text follow the decoded instruction, which holds every bit that is not ignored and no ignored one. -/
theorem ignoredBitsHaveNoEffect : Obligations.IgnoredBitsHaveNoEffect := by
  refine ⟨fun cfg v w hk h => ?_, fun cfg v w => dispatch_eq_of_off_ignoredBits, fun cfg v w hne h => ?_⟩
  · have hdecode : decode cfg v = decode cfg w := by
      rw [decode, decode, hk]
      exact instrOfKind_congr h
    rw [blockOutputs_eq_of_decode, blockOutputs_eq_of_decode, hdecode]
  · have hk := dispatch_eq_of_renders_eq h
    have hv := encodeOfDecodeKeepsTheTestedBits cfg v (hk ▸ hne)
    rw [decode_eq_of_renders_eq h, hk] at hv
    exact hv.symm.trans (encodeOfDecodeKeepsTheTestedBits cfg w hne)

end Sys2Proof.Machine

namespace Sys2Proof

/-! ## How many words each row holds of (R58's count check) -/

/-- A word as its three tested fields and its three registers. -/
def fieldsEquiv : Word ≃ (BitVec 7 × BitVec 3 × BitVec 7) × (RegIdx × RegIdx × RegIdx) where
  toFun w := ((funct7Of w, funct3Of w, opcodeOf w), (rs2Of w, rs1Of w, rdOf w))
  invFun t := rWord t.1.1 t.2.1 t.2.2.1 t.1.2.1 t.2.2.2 t.1.2.2
  left_inv := rWord_fields
  right_inv t := by simp

theorem card_bitVec (n : Nat) : Nat.card (BitVec n) = 2 ^ n := by
  rw [Nat.card_congr BitVec.equivFin.toEquiv, Nat.card_fin]

/-- The words that pass a test of each field: a choice for each field, and the registers free. -/
def fieldTestsEquiv (p : BitVec 7 → Prop) (q : BitVec 3 → Prop) (t : BitVec 7 → Prop) :
    { w : Word // p (funct7Of w) ∧ q (funct3Of w) ∧ t (opcodeOf w) } ≃
      ({ x // p x } × { x // q x } × { x // t x }) × (RegIdx × RegIdx × RegIdx) :=
  (fieldsEquiv.subtypeEquiv (q := fun s => p s.1.1 ∧ q s.1.2.1 ∧ t s.1.2.2) fun _ => Iff.rfl).trans <|
    (Equiv.prodSubtypeFstEquivSubtypeProd (p := fun s : BitVec 7 × BitVec 3 × BitVec 7 => p s.1 ∧ q s.2.1 ∧ t s.2.2)).trans <|
      Equiv.prodCongr
        ((Equiv.subtypeProdEquivProd (p := p) (q := fun s : BitVec 3 × BitVec 7 => q s.1 ∧ t s.2)).trans
          (Equiv.prodCongr (Equiv.refl _) Equiv.subtypeProdEquivProd))
        (Equiv.refl _)

theorem card_of_fields (p : BitVec 7 → Prop) (q : BitVec 3 → Prop) (t : BitVec 7 → Prop) :
    Nat.card { w : Word // p (funct7Of w) ∧ q (funct3Of w) ∧ t (opcodeOf w) } =
      2 ^ 15 * (Nat.card { x // p x } * (Nat.card { x // q x } * Nat.card { x // t x })) := by
  rw [Nat.card_congr (fieldTestsEquiv p q t)]
  simp only [Nat.card_prod, card_bitVec]
  ring

/-- The words a row holds of: `2 ^ 15` with all three fields tested, `2 ^ 22` with opcode and funct3, `2 ^ 25` with the opcode, and for
`srai` those of its pattern but `srli`'s (R58). -/
def TableRow.size (r : TableRow) : Nat :=
  if r.upperNonzero then 2 ^ 22 - 2 ^ 15
  else if r.mask = 0xFE00707F then 2 ^ 15
  else if r.mask = 0x0000707F then 2 ^ 22
  else 2 ^ 25

theorem and_funct7Mask_eq_iff {v w : Word} :
    v &&& 0xFE00707F = w &&& 0xFE00707F ↔ funct7Of v = funct7Of w ∧ funct3Of v = funct3Of w ∧ opcodeOf v = opcodeOf w := by
  rw [and_funct7Mask, and_funct7Mask]
  refine ⟨fun h => ⟨?_, ?_, ?_⟩, fun ⟨h7, h3, hop⟩ => by rw [h7, h3, hop]⟩
  · simpa using congrArg funct7Of h
  · simpa using congrArg funct3Of h
  · simpa using congrArg opcodeOf h

theorem and_funct3Mask_eq_iff {v w : Word} :
    v &&& 0x0000707F = w &&& 0x0000707F ↔ funct3Of v = funct3Of w ∧ opcodeOf v = opcodeOf w := by
  rw [and_funct3Mask, and_funct3Mask]
  refine ⟨fun h => ⟨?_, ?_⟩, fun ⟨h3, hop⟩ => by rw [h3, hop]⟩
  · simpa using congrArg funct3Of h
  · simpa using congrArg opcodeOf h

theorem and_opcodeMask_eq_iff {v w : Word} : v &&& 0x0000007F = w &&& 0x0000007F ↔ opcodeOf v = opcodeOf w := by
  rw [and_opcodeMask, and_opcodeMask]
  exact ⟨fun h => by simpa using congrArg opcodeOf h, fun hop => by rw [hop]⟩

theorem card_subtype_eq (n : Nat) (a : BitVec n) : Nat.card { x // x = a } = 1 := Nat.card_unique

theorem card_subtype_true (n : Nat) : Nat.card { _x : BitVec n // True } = 2 ^ n := by
  rw [Nat.card_congr (Equiv.subtypeUnivEquiv fun _ => trivial), card_bitVec]

theorem card_subtype_ne_zero : Nat.card { x : BitVec 7 // x ≠ 0 } = 127 := by
  rw [Nat.card_eq_fintype_card, Fintype.card_subtype_compl]
  simp [← Nat.card_eq_fintype_card, card_bitVec]

/-- The size of a row from what it asks of each field. -/
theorem card_holds_of_fields {r : TableRow} {p : BitVec 7 → Prop} {q : BitVec 3 → Prop} {t : BitVec 7 → Prop}
    (h : ∀ w, r.holds w = true ↔ p (funct7Of w) ∧ q (funct3Of w) ∧ t (opcodeOf w)) :
    Nat.card { w // r.holds w = true } = 2 ^ 15 * (Nat.card { x // p x } * (Nat.card { x // q x } * Nat.card { x // t x })) :=
  (Nat.card_congr (Equiv.subtypeEquivRight h)).trans (card_of_fields p q t)

/-- Without a further condition a row holds of the words that agree with its pattern under its mask. -/
theorem holds_iff_of_plain {r : TableRow} (hr : r ∈ recognisedRows) (hup : r.upperNonzero = false) (w : Word) :
    r.holds w = true ↔ w &&& r.mask = r.pattern &&& r.mask := by
  have hpattern : ∀ r ∈ recognisedRows, r.pattern &&& r.mask = r.pattern := by decide
  rw [holds_iff, hup, hpattern r hr]
  exact and_iff_left (fun h => nomatch h)

theorem card_holds {r : TableRow} (hr : r ∈ recognisedRows) : Nat.card { w // r.holds w = true } = r.size := by
  rcases recognisedRows_shape r hr with ⟨hm, hup⟩ | ⟨hm, hup, -⟩ | ⟨hm, hup, -⟩ | rfl
  · have h : ∀ w, r.holds w = true ↔
        funct7Of w = funct7Of r.pattern ∧ funct3Of w = funct3Of r.pattern ∧ opcodeOf w = opcodeOf r.pattern := fun w => by
      rw [holds_iff_of_plain hr hup, hm, and_funct7Mask_eq_iff]
    rw [card_holds_of_fields (p := (· = _)) (q := (· = _)) (t := (· = _)) h, card_subtype_eq, card_subtype_eq, card_subtype_eq]
    simp [TableRow.size, hm, hup]
  · have h : ∀ w, r.holds w = true ↔ True ∧ funct3Of w = funct3Of r.pattern ∧ opcodeOf w = opcodeOf r.pattern := fun w => by
      rw [holds_iff_of_plain hr hup, hm, and_funct3Mask_eq_iff, true_and]
    rw [card_holds_of_fields (p := fun _ => True) (q := (· = _)) (t := (· = _)) h, card_subtype_true, card_subtype_eq, card_subtype_eq]
    simp [TableRow.size, hm, hup]
  · have h : ∀ w, r.holds w = true ↔ True ∧ True ∧ opcodeOf w = opcodeOf r.pattern := fun w => by
      rw [holds_iff_of_plain hr hup, hm, and_opcodeMask_eq_iff, true_and, true_and]
    rw [card_holds_of_fields (p := fun _ => True) (q := fun _ => True) (t := (· = _)) h, card_subtype_true, card_subtype_true,
      card_subtype_eq]
    simp [TableRow.size, hm, hup]
  · have h : ∀ w, TableRow.holds ⟨.srai, 0x0000707F, 0x00005013, true⟩ w = true ↔
        funct7Of w ≠ 0 ∧ funct3Of w = 5 ∧ opcodeOf w = 0x13 := fun w => by
      rw [holds_iff, and_comm]
      exact and_congr (by simp) (and_funct3Mask_eq_iff (w := 0x00005013))
    rw [card_holds_of_fields (p := (· ≠ 0)) (q := (· = _)) (t := (· = _)) h, card_subtype_ne_zero, card_subtype_eq, card_subtype_eq]
    simp [TableRow.size]

/-- The sizes of the 37 rows add up (R58). -/
theorem sum_size : (recognisedRows.map TableRow.size).sum = 251789312 := by decide

/-- The rows part the recognised words: every one is in a row, and no two rows share one. -/
theorem card_recognised : Nat.card { w : Word // dispatch blockConfig w ≠ .unknown } = 251789312 := by
  have hparts : Finset.univ.filter (fun w => dispatch blockConfig w ≠ .unknown) =
      recognisedRows.toFinset.biUnion fun r => Finset.univ.filter fun w => r.holds w = true := by
    ext w
    simp only [Finset.mem_filter, Finset.mem_univ, true_and, Finset.mem_biUnion, List.mem_toFinset]
    exact ⟨inTable_of_dispatch rfl, fun ⟨r, hr, hrw⟩ => dispatch_of_holds blockConfig hr hrw ▸ kind_ne_unknown r hr⟩
  have hdisjoint : ∀ r ∈ recognisedRows.toFinset, ∀ q ∈ recognisedRows.toFinset, r ≠ q →
      Disjoint (Finset.univ.filter fun w => r.holds w = true) (Finset.univ.filter fun w => q.holds w = true) := by
    intro r hr q hq hne
    rw [List.mem_toFinset] at hr hq
    exact Finset.disjoint_filter.2 fun w _ hrw hqw => hne (eq_of_holds hr hq hrw hqw)
  have hsizes : ∀ r ∈ recognisedRows.toFinset, (Finset.univ.filter fun w => r.holds w = true).card = r.size := by
    intro r hr
    rw [← card_holds (List.mem_toFinset.1 hr), Nat.card_eq_fintype_card, Fintype.card_subtype]
  rw [Nat.card_eq_fintype_card, Fintype.card_subtype, hparts, Finset.card_biUnion hdisjoint, Finset.sum_congr rfl hsizes,
    List.sum_toFinset _ (by decide), sum_size]

/-- Settles O15: the rows part the recognised words, and the unknown words are the rest of the `2 ^ 32`. -/
theorem recognisedWordCount : Obligations.RecognisedWordCount := by
  have htotal : Nat.card { w : Word // dispatch blockConfig w = .unknown } + Nat.card { w : Word // dispatch blockConfig w ≠ .unknown } =
      2 ^ 32 := by
    rw [← Nat.card_sum, Nat.card_congr (Equiv.sumCompl _), card_bitVec]
  rw [card_recognised] at htotal
  exact ⟨card_recognised, (Nat.eq_sub_of_add_eq htotal).trans (by norm_num)⟩

end Sys2Proof
end

section
/-! PROOFS. The register-register instructions (40_r_type.md): what each of the ten leaves behind, first by its operands, then by the
words of its row in the opcode table. -/

namespace Sys2Proof.Machine

/-! ## Recognised instructions of any format -/

/-- Driving the outputs of a recognised kind leaves the state the claims call `after`. -/
theorem drive_eq_after {k : Kind} (hne : k ≠ .unknown) (t : Template) (v : Option Int) (txt : Text) (s : State) :
    drive k t v txt s = Claims.after s k t (v.map bv32) txt := by
  have hknown : knownOf k = true := by simpa [knownOf] using hne
  cases v <;> simp [drive, Claims.after, hknown, immPortOf, immValidOf]

theorem exec_eq_next_after {i : Instr} (hne : instrKind i ≠ .unknown) (s : State) :
    exec i s = .next (Claims.after s (instrKind i) (instrKind i).template ((instrImm s.cfg i).map bv32) (instrText s.cfg i)) := by
  rw [exec_eq_next_drive, drive_eq_after hne]

/-! ## Template R: no immediate, three registers (R63, R117) -/

theorem ne_unknown_of_template_r {k : Kind} (ht : k.template = .R) : k ≠ .unknown := by
  rintro rfl
  cases ht

theorem textR_eq_rrrText (m : String) (rd rs1 rs2 : RegIdx) : textR m.toList rd rs1 rs2 = Claims.rrrText m rd rs1 rs2 := by
  simp [textR, Claims.rrrText, Claims.str, space, comma]

theorem instrImm_of_template_r {i : Instr} (ht : (instrKind i).template = .R) (cfg : Config) : instrImm cfg i = none := by
  simpa [ht] using instrImm_isSome cfg i

/-- What an instruction of template R drives (R63). -/
theorem exec_eq_next_after_r {i : Instr} {s : State} {m : String} {rd rs1 rs2 : RegIdx} (ht : (instrKind i).template = .R)
    (htext : instrText s.cfg i = textR m.toList rd rs1 rs2) :
    exec i s = .next (Claims.after s (instrKind i) .R none (Claims.rrrText m rd rs1 rs2)) := by
  rw [exec_eq_next_after (ne_unknown_of_template_r ht), ht, instrImm_of_template_r ht, htext, textR_eq_rrrText]
  rfl

/-- Settles O31: each of the ten is an instruction of template R with its mnemonic's text. -/
theorem rTypeInstructionsComplete : Obligations.RTypeInstructionsComplete := by
  intro rd rs1 rs2 s
  refine ⟨?_, ?_, ?_, ?_, ?_, ?_, ?_, ?_, ?_, ?_⟩ <;> exact exec_eq_next_after_r rfl rfl

/-! ## The words of the rows with opcode 0x33 (R58, R63 to R73) -/

/-- A call with a word that the dispatch gives a kind of template R (R63). -/
theorem call_eq_next_after_r {s : State} {w : Word} {k : Kind} {m : String} (hk : dispatch s.cfg w = k) (ht : k.template = .R)
    (hm : k.mnemonic = m.toList) :
    call w s = .next (Claims.after (s.present w) k .R none (Claims.rrrText m (rdOf w) (rs1Of w) (rs2Of w))) := by
  rw [call_eq_next_after hk (ne_unknown_of_template_r ht), ← textR_eq_rrrText, ← hm]
  simp only [printedImm, renderWord, ht]
  rfl

theorem rTypeRows_shape : ∀ r ∈ rTypeRows, r ∈ recognisedRows ∧ r.upperNonzero = false ∧ r.kind.template = .R := by
  decide

/-- Every word a row with opcode 0x33 selects drives that row's kind, under both values of `R_PAIR_EXACT`. -/
theorem wordDrives_of_mem_rTypeRows {r : TableRow} {m : String} (hr : r ∈ rTypeRows) (hm : r.kind.mnemonic = m.toList) :
    Claims.wordDrives r.mask r.pattern r.kind r.kind.code.toNat .R (fun _ => none)
      (fun w => Claims.rrrText m (rdOf w) (rs1Of w) (rs2Of w)) := by
  obtain ⟨hrow, hup, ht⟩ := rTypeRows_shape r hr
  refine ⟨rfl, fun s w hsel => ?_⟩
  have hholds : r.holds w = true := (holds_iff r w).2 ⟨hsel, fun h => by rw [hup] at h; cases h⟩
  exact call_eq_next_after_r (dispatch_of_holds s.cfg hrow hholds) ht hm

/-- Settles O38: the ten patterns are the rows of the table with opcode 0x33, in its order. -/
theorem rTypeWordsRender : Obligations.RTypeWordsRender :=
  ⟨rfl,
    wordDrives_of_mem_rTypeRows (r := rTypeRows[0]) (by decide) rfl,
    wordDrives_of_mem_rTypeRows (r := rTypeRows[1]) (by decide) rfl,
    wordDrives_of_mem_rTypeRows (r := rTypeRows[2]) (by decide) rfl,
    wordDrives_of_mem_rTypeRows (r := rTypeRows[3]) (by decide) rfl,
    wordDrives_of_mem_rTypeRows (r := rTypeRows[4]) (by decide) rfl,
    wordDrives_of_mem_rTypeRows (r := rTypeRows[5]) (by decide) rfl,
    wordDrives_of_mem_rTypeRows (r := rTypeRows[6]) (by decide) rfl,
    wordDrives_of_mem_rTypeRows (r := rTypeRows[7]) (by decide) rfl,
    wordDrives_of_mem_rTypeRows (r := rTypeRows[8]) (by decide) rfl,
    wordDrives_of_mem_rTypeRows (r := rTypeRows[9]) (by decide) rfl⟩

end Sys2Proof.Machine
end

section
/-! PROOFS. The loads (41_loads.md): what each of the five leaves behind, first by its operands, then by the words of its row in the
opcode table, and the words of opcode 0x03 that no row selects. -/

namespace Sys2Proof.Machine

/-! ## Template IMEM: a register, an offset and a base (R74, R117) -/

theorem bv32_sext {n : Nat} (v : BitVec n) : bv32 (sext v) = v.signExtend 32 := rfl

theorem ne_unknown_of_template_iMem {k : Kind} (ht : k.template = .IMEM) : k ≠ .unknown := by
  rintro rfl
  cases ht

theorem textIMem_eq_memText (m : String) (rd : RegIdx) (v : Int) (rs1 : RegIdx) :
    textIMem m.toList rd v rs1 = Claims.memText m rd v rs1 := by
  simp [textIMem, memOperand, Claims.memText, Claims.str, space, comma]

/-- What an instruction of template IMEM drives: the offset is its 12-bit immediate, sign-extended (R74, R105). -/
theorem exec_eq_next_after_iMem {i : Instr} {s : State} {m : String} {rd rs1 : RegIdx} {imm : BitVec 12}
    (ht : (instrKind i).template = .IMEM) (himm : instrImm s.cfg i = some (sext imm))
    (htext : instrText s.cfg i = textIMem m.toList rd (sext imm) rs1) :
    exec i s = .next (Claims.after s (instrKind i) .IMEM (some (imm.signExtend 32)) (Claims.memText m rd imm.toInt rs1)) := by
  rw [exec_eq_next_after (ne_unknown_of_template_iMem ht), ht, himm, htext, textIMem_eq_memText, Option.map_some, bv32_sext, sext]

/-- Settles O32: each of the five is an instruction of template IMEM with its mnemonic's text. -/
theorem loadInstructionsComplete : Obligations.LoadInstructionsComplete := by
  intro rd rs1 imm s
  refine ⟨?_, ?_, ?_, ?_, ?_⟩ <;> exact exec_eq_next_after_iMem rfl rfl rfl

/-! ## From a row of the table to what a call drives (R58) -/

/-- A row without a further condition gives its kind to every word its mask and pattern select, under both parameters. -/
theorem dispatch_of_plainRow (cfg : Config) {r : TableRow} {w : Word} (hr : r ∈ recognisedRows) (hup : r.upperNonzero = false)
    (hsel : w &&& r.mask = r.pattern) : dispatch cfg w = r.kind :=
  dispatch_of_holds cfg hr ((holds_iff r w).2 ⟨hsel, fun h => absurd h (by simp [hup])⟩)

/-- A call with a word that the dispatch gives a kind of template IMEM (R74, R105). -/
theorem call_eq_next_after_iMem {s : State} {w : Word} {k : Kind} {m : String} (hk : dispatch s.cfg w = k) (ht : k.template = .IMEM)
    (hm : k.mnemonic = m.toList) :
    call w s = .next (Claims.after (s.present w) k .IMEM (some (bv32 (immI w))) (Claims.memText m (rdOf w) (immI w) (rs1Of w))) := by
  rw [call_eq_next_after hk (ne_unknown_of_template_iMem ht), ← textIMem_eq_memText, ← hm]
  simp only [printedImm, renderWord, ht]
  rfl

/-- Every word a row of template IMEM selects drives that row's kind. -/
theorem wordDrives_of_iMemRow {r : TableRow} {m : String} (hr : r ∈ recognisedRows) (hup : r.upperNonzero = false)
    (ht : r.kind.template = .IMEM) (hm : r.kind.mnemonic = m.toList) :
    Claims.wordDrives r.mask r.pattern r.kind r.kind.code.toNat .IMEM (fun w => some (bv32 (immI w)))
      (fun w => Claims.memText m (rdOf w) (immI w) (rs1Of w)) :=
  ⟨rfl, fun s _ hsel => call_eq_next_after_iMem (dispatch_of_plainRow s.cfg hr hup hsel) ht hm⟩

/-- A call with a word that the dispatch does not recognise reads as the unknown result (R56, R106). -/
theorem readsUnknown_call {s : State} {w : Word} (hk : dispatch s.cfg w = .unknown) : Claims.readsUnknown (call w s) := by
  refine ⟨_, call_eq_next_blockOutputs w s, ?_⟩
  rw [blockOutputs, hk]
  exact ⟨rfl, rfl, rfl⟩

/-! ## The words of opcode 0x03 (R50, R74 to R79) -/

theorem loadRows_shape : ∀ r ∈ loadRows, r ∈ recognisedRows ∧ r.upperNonzero = false ∧ r.kind.template = .IMEM := by
  decide

theorem wordDrives_of_mem_loadRows {r : TableRow} {m : String} (hr : r ∈ loadRows) (hm : r.kind.mnemonic = m.toList) :
    Claims.wordDrives r.mask r.pattern r.kind r.kind.code.toNat .IMEM (fun w => some (bv32 (immI w)))
      (fun w => Claims.memText m (rdOf w) (immI w) (rs1Of w)) := by
  obtain ⟨hrow, hup, ht⟩ := loadRows_shape r hr
  exact wordDrives_of_iMemRow hrow hup ht hm

/-- The second level of opcode 0x03 recognises five of the eight funct3 values (R50). -/
theorem dispatchLoad_eq_unknown : ∀ f3 ∈ [3#3, 6#3, 7#3], dispatchLoad f3 = .unknown := by
  decide

theorem dispatch_eq_unknown_of_load {cfg : Config} {w : Word} (hop : opcodeOf w = 0x03) (h3 : funct3Of w ∈ [3#3, 6#3, 7#3]) :
    dispatch cfg w = .unknown :=
  (dispatch_of_fields hop rfl rfl).trans (dispatchLoad_eq_unknown _ h3)

/-- Settles O39: the five patterns are the rows of the table with opcode 0x03, in its order; no row has the other three funct3 values, and
the examples are computed. -/
theorem loadWordsRender : Obligations.LoadWordsRender := by
  refine ⟨rfl,
    wordDrives_of_mem_loadRows (r := loadRows[0]) (by decide) rfl,
    wordDrives_of_mem_loadRows (r := loadRows[1]) (by decide) rfl,
    wordDrives_of_mem_loadRows (r := loadRows[2]) (by decide) rfl,
    wordDrives_of_mem_loadRows (r := loadRows[3]) (by decide) rfl,
    wordDrives_of_mem_loadRows (r := loadRows[4]) (by decide) rfl,
    fun s w hop h3 => readsUnknown_call (dispatch_eq_unknown_of_load hop h3), ?_⟩
  unfold Claims.examplesRender
  decide

end Sys2Proof.Machine
end

section
/-! PROOFS. The immediate instructions (42_op_imm.md): what each of the nine leaves behind, first by its operands, then by the words of its
row in the opcode table. -/

namespace Sys2Proof.Machine

/-! ## Template IARITH: two registers and a value (R80, R117) -/

theorem ne_unknown_of_template_iArith {k : Kind} (ht : k.template = .IARITH) : k ≠ .unknown := by
  rintro rfl
  cases ht

/-- What an instruction of template IARITH drives: the value it prints, on both outputs (R80). -/
theorem exec_eq_next_after_iArith {i : Instr} {s : State} {m : String} {rd rs1 : RegIdx} {v : Int}
    (ht : (instrKind i).template = .IARITH) (hv : instrImm s.cfg i = some v)
    (htext : instrText s.cfg i = textIArith m.toList rd rs1 v) :
    exec i s = .next (Claims.after s (instrKind i) .IARITH (some (bv32 v)) (Claims.rrvText m rd rs1 v)) := by
  rw [exec_eq_next_after (ne_unknown_of_template_iArith ht), ht, hv, htext, textIArith_eq_rrvText, Option.map_some]

/-- Settles O33: seven of the nine print their 12-bit immediate, signed, and the right shifts their shift amount (R47). -/
theorem immediateInstructionsComplete : Obligations.ImmediateInstructionsComplete := by
  intro rd rs1 imm shamt s
  rw [← bv32_sext imm, ← bv32_shamtValue shamt]
  refine ⟨?_, ?_, ?_, ?_, ?_, ?_, ?_, ?_, ?_⟩ <;> exact exec_eq_next_after_iArith rfl rfl rfl

/-! ## The words of opcode 0x13 (R51, R80 to R89) -/

/-- Only `srai` prints the masked immediate (R47). -/
theorem printedImm_of_template_iArith {k : Kind} (ht : k.template = .IARITH) (hsrai : k ≠ .srai) (cfg : Config) (w : Word) :
    printedImm cfg k w = some (immI w) := by
  simp only [printedImm, ht, if_neg hsrai]

theorem printedImm_srai (cfg : Config) (w : Word) : printedImm cfg .srai w = some (shamtValue (rs2Of w)) :=
  congrArg some (immMasked_eq_shamtValue w)

/-- Of the rows with opcode 0x13, `srai`'s alone has the further condition. -/
theorem opImmRows_shape : ∀ r ∈ opImmRows,
    r ∈ recognisedRows ∧ r.kind.template = .IARITH ∧ (r.upperNonzero = false → r.kind ≠ .srai) := by
  decide

theorem wordDrives_of_mem_opImmRows {r : TableRow} {m : String} (hr : r ∈ opImmRows) (hup : r.upperNonzero = false)
    (hm : r.kind.mnemonic = m.toList) :
    Claims.wordDrives r.mask r.pattern r.kind r.kind.code.toNat .IARITH (fun w => some (bv32 (immI w)))
      (fun w => Claims.rrvText m (rdOf w) (rs1Of w) (immI w)) := by
  obtain ⟨hrow, ht, hsrai⟩ := opImmRows_shape r hr
  exact ⟨rfl, fun s w hsel => call_eq_next_after_iArith (dispatch_of_plainRow s.cfg hrow hup hsel) ht hm
    (printedImm_of_template_iArith ht (hsrai hup) s.cfg w)⟩

theorem and_upperMask (w : Word) : w &&& 0xFE000000 = rWord (funct7Of w) 0 0 0 0 0 := by
  rw [show (0xFE000000 : Word) = rWord (BitVec.allOnes 7) 0#5 0#5 0#3 0#5 0#7 by decide, and_rWord]
  simp only [BitVec.and_zero, BitVec.and_allOnes]
  rfl

theorem funct7Of_ne_zero_of_and_upperMask {w : Word} (h : w &&& 0xFE000000 ≠ 0) : funct7Of w ≠ 0 := by
  intro h7
  rw [and_upperMask, h7] at h
  exact h (by decide)

/-- The last row with opcode 0x13: its pattern and a nonzero upper part (R58). -/
theorem dispatch_eq_srai (cfg : Config) {w : Word} (hsel : w &&& 0x0000707F = 0x00005013) (hup : w &&& 0xFE000000 ≠ 0) :
    dispatch cfg w = .srai :=
  dispatch_of_holds cfg (r := opImmRows[8]) (by decide)
    ((holds_iff _ w).2 ⟨hsel, fun _ => funct7Of_ne_zero_of_and_upperMask hup⟩)

/-- Settles O40: eight patterns are rows of the table with opcode 0x13 and no further condition, in its order; the words of `srai` are those
of its row with a nonzero upper part, and print the shift amount. -/
theorem immediateWordsRender : Obligations.ImmediateWordsRender := by
  refine ⟨rfl,
    wordDrives_of_mem_opImmRows (r := opImmRows[0]) (by decide) rfl rfl,
    wordDrives_of_mem_opImmRows (r := opImmRows[1]) (by decide) rfl rfl,
    wordDrives_of_mem_opImmRows (r := opImmRows[2]) (by decide) rfl rfl,
    wordDrives_of_mem_opImmRows (r := opImmRows[3]) (by decide) rfl rfl,
    wordDrives_of_mem_opImmRows (r := opImmRows[4]) (by decide) rfl rfl,
    wordDrives_of_mem_opImmRows (r := opImmRows[5]) (by decide) rfl rfl,
    wordDrives_of_mem_opImmRows (r := opImmRows[6]) (by decide) rfl rfl,
    wordDrives_of_mem_opImmRows (r := opImmRows[7]) (by decide) rfl rfl, rfl, fun s w hsel hup => ?_⟩
  have hcall := call_eq_next_after_iArith (m := "srai") (dispatch_eq_srai s.cfg hsel hup) rfl rfl (printedImm_srai s.cfg w)
  rwa [bv32_shamtValue] at hcall

end Sys2Proof.Machine
end

section
/-! PROOFS. The branches (43_branches.md): what each of the six leaves behind, first by its operands, then by the words of its row in the
opcode table, and the words of opcode 0x63 that no row selects. -/

namespace Sys2Proof.Machine

/-! ## Template B: two registers and an offset (R90, R117) -/

/-- Every template but `NONE` belongs to recognised kinds only. -/
theorem ne_unknown_of_template_ne_none {k : Kind} (ht : k.template ≠ .NONE) : k ≠ .unknown := by
  rintro rfl
  exact ht rfl

theorem textB_eq_rrvText (m : String) (rs1 rs2 : RegIdx) (v : Int) : textB m.toList rs1 rs2 v = Claims.rrvText m rs1 rs2 v := by
  simp [textB, Claims.rrvText, Claims.str, space, comma]

/-- What an instruction of template B drives: the offset is its 13-bit immediate, sign-extended, odd or even (R90). -/
theorem exec_eq_next_after_b {i : Instr} {s : State} {m : String} {rs1 rs2 : RegIdx} {imm : BitVec 13}
    (ht : (instrKind i).template = .B) (himm : instrImm s.cfg i = some (sext imm))
    (htext : instrText s.cfg i = textB m.toList rs1 rs2 (sext imm)) :
    exec i s = .next (Claims.after s (instrKind i) .B (some (imm.signExtend 32)) (Claims.rrvText m rs1 rs2 imm.toInt)) := by
  rw [exec_eq_next_after (ne_unknown_of_template_ne_none (by simp [ht])), ht, himm, htext, textB_eq_rrvText,
    Option.map_some, bv32_sext, sext]

/-- Settles O34: each of the six is an instruction of template B with its mnemonic's text. -/
theorem branchInstructionsComplete : Obligations.BranchInstructionsComplete := by
  intro rs1 rs2 imm s
  refine ⟨?_, ?_, ?_, ?_, ?_, ?_⟩ <;> exact exec_eq_next_after_b rfl rfl rfl

/-! ## The words of opcode 0x63 (R52, R90 to R96) -/

/-- A call with a word that the dispatch gives a kind of template B (R90). -/
theorem call_eq_next_after_b {s : State} {w : Word} {k : Kind} {m : String} (hk : dispatch s.cfg w = k) (ht : k.template = .B)
    (hm : k.mnemonic = m.toList) :
    call w s = .next (Claims.after (s.present w) k .B (some (bv32 (immB w))) (Claims.rrvText m (rs1Of w) (rs2Of w) (immB w))) := by
  rw [call_eq_next_after hk (ne_unknown_of_template_ne_none (by simp [ht])), ← textB_eq_rrvText, ← hm]
  simp only [printedImm, renderWord, ht]
  rfl

theorem branchRows_shape : ∀ r ∈ branchRows, r ∈ recognisedRows ∧ r.upperNonzero = false ∧ r.kind.template = .B := by
  decide

/-- Every word a row with opcode 0x63 selects drives that row's kind and the offset the word encodes. -/
theorem wordDrives_of_mem_branchRows {r : TableRow} {m : String} (hr : r ∈ branchRows) (hm : r.kind.mnemonic = m.toList) :
    Claims.wordDrives r.mask r.pattern r.kind r.kind.code.toNat .B (fun w => some (bv32 (immB w)))
      (fun w => Claims.rrvText m (rs1Of w) (rs2Of w) (immB w)) := by
  obtain ⟨hrow, hup, ht⟩ := branchRows_shape r hr
  exact ⟨rfl, fun s w hsel => call_eq_next_after_b (dispatch_of_plainRow s.cfg hrow hup hsel) ht hm⟩

/-- The second level of opcode 0x63 recognises six of the eight funct3 values (R52). -/
theorem dispatchBranch_eq_unknown : ∀ f3 ∈ [2#3, 3#3], dispatchBranch f3 = .unknown := by
  decide

theorem dispatch_eq_unknown_of_branch {cfg : Config} {w : Word} (hop : opcodeOf w = 0x63) (h3 : funct3Of w ∈ [2#3, 3#3]) :
    dispatch cfg w = .unknown :=
  (dispatch_of_fields hop rfl rfl).trans (dispatchBranch_eq_unknown _ h3)

/-- Settles O41: the six patterns are the rows of the table with opcode 0x63, in its order; the offset is even and in range because it is
twice a 12-bit number; no row has funct3 2 or 3, and the examples are computed. -/
theorem branchWordsRender : Obligations.BranchWordsRender := by
  refine ⟨rfl,
    wordDrives_of_mem_branchRows (r := branchRows[0]) (by decide) rfl,
    wordDrives_of_mem_branchRows (r := branchRows[1]) (by decide) rfl,
    wordDrives_of_mem_branchRows (r := branchRows[2]) (by decide) rfl,
    wordDrives_of_mem_branchRows (r := branchRows[3]) (by decide) rfl,
    wordDrives_of_mem_branchRows (r := branchRows[4]) (by decide) rfl,
    wordDrives_of_mem_branchRows (r := branchRows[5]) (by decide) rfl,
    immB_even_and_bounds,
    fun s w hop h3 => readsUnknown_call (dispatch_eq_unknown_of_branch hop h3), ?_⟩
  unfold Claims.examplesRender
  decide

end Sys2Proof.Machine
end

section
/-! PROOFS. The stores (44_stores.md): what each of the three leaves behind, first by its operands, then by the words of its row in the
opcode table, and the words of opcode 0x23 that no row selects. -/

namespace Sys2Proof.Machine

/-! ## Template S: the register to be stored, an offset and a base (R97, R117) -/

/-- Template S writes a text of template IMEM's form, with the register to be stored where the loads have the destination (R97). -/
theorem textS_eq_memText (m : String) (rs2 : RegIdx) (v : Int) (rs1 : RegIdx) : textS m.toList rs2 v rs1 = Claims.memText m rs2 v rs1 :=
  textIMem_eq_memText m rs2 v rs1

/-- What an instruction of template S drives: the offset is its 12-bit immediate, sign-extended (R97). -/
theorem exec_eq_next_after_s {i : Instr} {s : State} {m : String} {rs1 rs2 : RegIdx} {imm : BitVec 12}
    (ht : (instrKind i).template = .S) (himm : instrImm s.cfg i = some (sext imm))
    (htext : instrText s.cfg i = textS m.toList rs2 (sext imm) rs1) :
    exec i s = .next (Claims.after s (instrKind i) .S (some (imm.signExtend 32)) (Claims.memText m rs2 imm.toInt rs1)) := by
  rw [exec_eq_next_after (ne_unknown_of_template_ne_none (by simp [ht])), ht, himm, htext, textS_eq_memText,
    Option.map_some, bv32_sext, sext]

/-- Settles O35: each of the three is an instruction of template S with its mnemonic's text. -/
theorem storeInstructionsComplete : Obligations.StoreInstructionsComplete := by
  intro rs1 rs2 imm s
  refine ⟨?_, ?_, ?_⟩ <;> exact exec_eq_next_after_s rfl rfl rfl

/-! ## The words of opcode 0x23 (R53, R97 to R100) -/

/-- A call with a word that the dispatch gives a kind of template S (R97). -/
theorem call_eq_next_after_s {s : State} {w : Word} {k : Kind} {m : String} (hk : dispatch s.cfg w = k) (ht : k.template = .S)
    (hm : k.mnemonic = m.toList) :
    call w s = .next (Claims.after (s.present w) k .S (some (bv32 (immS w))) (Claims.memText m (rs2Of w) (immS w) (rs1Of w))) := by
  rw [call_eq_next_after hk (ne_unknown_of_template_ne_none (by simp [ht])), ← textS_eq_memText, ← hm]
  simp only [printedImm, renderWord, ht]
  rfl

theorem storeRows_shape : ∀ r ∈ storeRows, r ∈ recognisedRows ∧ r.upperNonzero = false ∧ r.kind.template = .S := by
  decide

/-- Every word a row with opcode 0x23 selects drives that row's kind and the offset gathered from the word's two immediate fields. -/
theorem wordDrives_of_mem_storeRows {r : TableRow} {m : String} (hr : r ∈ storeRows) (hm : r.kind.mnemonic = m.toList) :
    Claims.wordDrives r.mask r.pattern r.kind r.kind.code.toNat .S (fun w => some (bv32 (immS w)))
      (fun w => Claims.memText m (rs2Of w) (immS w) (rs1Of w)) := by
  obtain ⟨hrow, hup, ht⟩ := storeRows_shape r hr
  exact ⟨rfl, fun s w hsel => call_eq_next_after_s (dispatch_of_plainRow s.cfg hrow hup hsel) ht hm⟩

/-- The second level of opcode 0x23 recognises three of the eight funct3 values (R53). -/
theorem dispatchStore_eq_unknown : ∀ f3 ∈ [3#3, 4#3, 5#3, 6#3, 7#3], dispatchStore f3 = .unknown := by
  decide

theorem dispatch_eq_unknown_of_store {cfg : Config} {w : Word} (hop : opcodeOf w = 0x23)
    (h3 : funct3Of w ∈ [3#3, 4#3, 5#3, 6#3, 7#3]) : dispatch cfg w = .unknown :=
  (dispatch_of_fields hop rfl rfl).trans (dispatchStore_eq_unknown _ h3)

/-- Settles O42: the three patterns are the rows of the table with opcode 0x23, in its order; no row has the other five funct3 values, and
the examples are computed. -/
theorem storeWordsRender : Obligations.StoreWordsRender := by
  refine ⟨rfl,
    wordDrives_of_mem_storeRows (r := storeRows[0]) (by decide) rfl,
    wordDrives_of_mem_storeRows (r := storeRows[1]) (by decide) rfl,
    wordDrives_of_mem_storeRows (r := storeRows[2]) (by decide) rfl,
    fun s w hop h3 => readsUnknown_call (dispatch_eq_unknown_of_store hop h3), ?_⟩
  unfold Claims.examplesRender
  decide

end Sys2Proof.Machine
end

section
/-! PROOFS. The upper-immediate instructions and the jumps (45_upper_jumps.md): what each of the four leaves behind, first by its operands,
then by the words of its row in the opcode table, and where the two readings of a U-immediate print one text. -/

namespace Sys2Proof.Machine

/-! ## Templates U and J: a register and a value (R102 to R104, R117) -/

theorem textU_eq_rvText (m : String) (rd : RegIdx) (v : Int) : textU m.toList rd v = Claims.rvText m rd v := by
  simp [textU, Claims.rvText, Claims.str, space, comma]

/-- Templates U and J write texts of one form. -/
theorem textJ_eq_rvText (m : String) (rd : RegIdx) (v : Int) : textJ m.toList rd v = Claims.rvText m rd v :=
  textU_eq_rvText m rd v

/-- The output `imm` carries the same 32 bits under both readings of a U-immediate (R23, D7). -/
theorem bv32_upperValue (cfg : Config) (imm : BitVec 32) : bv32 (upperValue cfg imm) = imm := by
  unfold bv32 upperValue
  split
  · exact BitVec.ofInt_toInt
  · rw [BitVec.ofInt_natCast, BitVec.ofNat_toNat, BitVec.setWidth_eq]

/-- What an instruction of template U drives: the bits of its immediate, printed by the reading `U_RENDER_SIGNED` chooses (R102, R103). -/
theorem exec_eq_next_after_u {i : Instr} {s : State} {m : String} {rd : RegIdx} {imm : BitVec 32} (ht : (instrKind i).template = .U)
    (himm : instrImm s.cfg i = some (upperValue s.cfg imm)) (htext : instrText s.cfg i = textU m.toList rd (upperValue s.cfg imm)) :
    exec i s = .next (Claims.after s (instrKind i) .U (some imm) (Claims.rvText m rd (upperValue s.cfg imm))) := by
  rw [exec_eq_next_after (ne_unknown_of_template_ne_none (by simp [ht])), ht, himm, htext, textU_eq_rvText,
    Option.map_some, bv32_upperValue]

/-- What an instruction of template J drives: the offset is its 21-bit immediate, sign-extended (R104). -/
theorem exec_eq_next_after_j {i : Instr} {s : State} {m : String} {rd : RegIdx} {imm : BitVec 21} (ht : (instrKind i).template = .J)
    (himm : instrImm s.cfg i = some (sext imm)) (htext : instrText s.cfg i = textJ m.toList rd (sext imm)) :
    exec i s = .next (Claims.after s (instrKind i) .J (some (imm.signExtend 32)) (Claims.rvText m rd imm.toInt)) := by
  rw [exec_eq_next_after (ne_unknown_of_template_ne_none (by simp [ht])), ht, himm, htext, textJ_eq_rvText,
    Option.map_some, bv32_sext, sext]

/-- Settles O36: `lui` and `auipc` are of template U, `jal` of template J, and `jalr` of the loads' template IMEM. -/
theorem upperAndJumpInstructionsComplete : Obligations.UpperAndJumpInstructionsComplete :=
  ⟨fun _ _ _ => ⟨exec_eq_next_after_u rfl rfl rfl, exec_eq_next_after_u rfl rfl rfl⟩,
    fun _ _ _ => exec_eq_next_after_j rfl rfl rfl,
    fun _ _ _ _ => exec_eq_next_after_iMem rfl rfl rfl⟩

/-! ## The words of opcodes 0x37 and 0x17 (R54, R102, R103) -/

/-- A call with a word that the dispatch gives a kind of template U (R102, R103). -/
theorem call_eq_next_after_u {s : State} {w : Word} {k : Kind} {m : String} (hk : dispatch s.cfg w = k) (ht : k.template = .U)
    (hm : k.mnemonic = m.toList) :
    call w s = .next (Claims.after (s.present w) k .U (some (w &&& 0xFFFFF000))
      (Claims.rvText m (rdOf w) (upperValue s.cfg (w &&& 0xFFFFF000)))) := by
  have himm : printedImm s.cfg k w = some (upperValue s.cfg (w &&& 0xFFFFF000)) := by
    simp only [printedImm, ht, immU, immUField_eq_and]
  rw [call_eq_next_after hk (ne_unknown_of_template_ne_none (by simp [ht])), himm, ← textU_eq_rvText, ← hm, ht,
    Option.map_some, bv32_upperValue]
  simp only [renderWord, ht, Option.getD_some]

/-- Opcodes 0x37 and 0x17 give a word a kind of template U, the same under all parameters. -/
theorem exists_template_u_of_opcode {w : Word} (hop : opcodeOf w = 0x37 ∨ opcodeOf w = 0x17) :
    ∃ k : Kind, k.template = .U ∧ ∀ cfg, dispatch cfg w = k := by
  rcases hop with hop | hop
  · exact ⟨.lui, rfl, fun _ => dispatch_of_fields hop rfl rfl⟩
  · exact ⟨.auipc, rfl, fun _ => dispatch_of_fields hop rfl rfl⟩

theorem renders_of_template_u {cfg : Config} {w : Word} {k : Kind} (hk : dispatch cfg w = k) (ht : k.template = .U) :
    renders cfg w = textU k.mnemonic (rdOf w) (immU cfg w) := by
  simp only [renders, blockOutputs, hk, renderWord, printedImm, ht, Option.getD_some]

/-- The two readings of a U-immediate differ by `2 ^ 32` when `word[31]` is 1 and not at all when it is 0 (R119, D7). -/
theorem immU_signed_eq_unsigned_iff (pairExact : Bool) (w : Word) :
    immU ⟨true, pairExact⟩ w = immU ⟨false, pairExact⟩ w ↔ w.getLsbD 31 = false := by
  have h31 : (immUField w).getLsbD 31 = w.getLsbD 31 := by rw [getLsbD_immUField]; rfl
  rw [immU_signed, immU_unsigned, toNat_eq_sext_add, h31]
  cases w.getLsbD 31 <;> simp

/-- A text of template U determines the number it prints, so the two texts agree where the two readings do. -/
theorem renders_signed_eq_unsigned_iff (pairExact : Bool) {w : Word} (hop : opcodeOf w = 0x37 ∨ opcodeOf w = 0x17) :
    renders ⟨true, pairExact⟩ w = renders ⟨false, pairExact⟩ w ↔ w.getLsbD 31 = false := by
  obtain ⟨k, ht, hk⟩ := exists_template_u_of_opcode hop
  rw [renders_of_template_u (hk _) ht, renders_of_template_u (hk _) ht, ← immU_signed_eq_unsigned_iff pairExact]
  exact ⟨fun h => (textU_inj h).2, fun h => by rw [h]⟩

/-- Settles O43: the two patterns are the first rows of the table's last group, and a U-immediate's two readings differ exactly when its
top bit, `word[31]`, is set. -/
theorem upperWordsRender : Obligations.UpperWordsRender :=
  ⟨rfl, rfl, rfl,
    fun s _ hsel => call_eq_next_after_u (dispatch_of_plainRow s.cfg (r := upperJumpRows[0]) (by decide) rfl hsel) rfl rfl,
    fun s _ hsel => call_eq_next_after_u (dispatch_of_plainRow s.cfg (r := upperJumpRows[1]) (by decide) rfl hsel) rfl rfl,
    fun pairExact _ hop => renders_signed_eq_unsigned_iff pairExact hop⟩

/-! ## The words of opcode 0x6F (R55, R104) -/

/-- A call with a word that the dispatch gives a kind of template J (R104). -/
theorem call_eq_next_after_j {s : State} {w : Word} {k : Kind} {m : String} (hk : dispatch s.cfg w = k) (ht : k.template = .J)
    (hm : k.mnemonic = m.toList) :
    call w s = .next (Claims.after (s.present w) k .J (some (bv32 (immJ w))) (Claims.rvText m (rdOf w) (immJ w))) := by
  rw [call_eq_next_after hk (ne_unknown_of_template_ne_none (by simp [ht])), ← textJ_eq_rvText, ← hm]
  simp only [printedImm, renderWord, ht]
  rfl

/-- Settles O44: the pattern is `jal`'s row of the table; the offset is even and in range because it is twice a 20-bit number, and the
examples are computed. -/
theorem jalWordsRender : Obligations.JalWordsRender := by
  refine ⟨rfl,
    ⟨rfl, fun s w hsel => call_eq_next_after_j (dispatch_of_plainRow s.cfg (r := upperJumpRows[2]) (by decide) rfl hsel) rfl rfl⟩,
    immJ_even_and_bounds, ?_⟩
  unfold Claims.examplesRender
  decide

/-! ## The words of opcode 0x67 (R55, R105) -/

/-- Settles O45: the pattern is `jalr`'s row of the table, whose mask leaves funct3 out (D10), and its template is the loads'. -/
theorem jalrWordsRender : Obligations.JalrWordsRender :=
  ⟨rfl, wordDrives_of_iMemRow (r := upperJumpRows[3]) (by decide) rfl rfl rfl, by decide, by decide⟩

end Sys2Proof.Machine
end

section
/-! PROOFS. The unknown result (46_unknown.md): which words the dispatch does not recognise, set by set, and what the unknown result
leaves behind in every state. -/

namespace Sys2Proof

open Sys2Proof.Machine

/-! ## What each second level does not recognise (R49, R50, R52, R53) -/

/-- One of R49's pairs, whose kinds are `first` and `second`: only `R_PAIR_EXACT` true leaves funct7 values out (D8). -/
theorem pair_eq_unknown_iff (cfg : Config) {first second : Kind} (h1 : first ≠ .unknown) (h2 : second ≠ .unknown) (f7 : BitVec 7) :
    (if f7 = 0x20#7 then second else if f7 = 0x00#7 ∨ cfg.rPairExact = false then first else .unknown) = .unknown ↔
      cfg.rPairExact = true ∧ f7 ∉ [0x00#7, 0x20#7] := by
  split_ifs with h20 h00
  · simp [h2, h20]
  · rcases h00 with h00 | hexact
    · simp [h1, h00]
    · simp [h1, hexact]
  · simpa [h20, and_comm] using h00

/-- The second level of opcode 0x33 leaves out words of its two pairs alone. -/
theorem dispatchR_eq_unknown_iff (cfg : Config) (f3 : BitVec 3) (f7 : BitVec 7) :
    dispatchR cfg f3 f7 = .unknown ↔ cfg.rPairExact = true ∧ f3 ∈ [0#3, 5#3] ∧ f7 ∉ [0x00#7, 0x20#7] := by
  by_cases hpair : f3 ∈ [0#3, 5#3]
  · simp only [hpair, true_and]
    simp only [List.mem_cons, List.not_mem_nil, or_false] at hpair
    rcases hpair with rfl | rfl <;>
      exact pair_eq_unknown_iff cfg (by decide) (by decide) f7
  · refine iff_of_false ?_ fun ⟨_, hmem, _⟩ => hpair hmem
    obtain ⟨h0, h5⟩ : f3 ≠ 0 ∧ f3 ≠ 5 := by simpa using hpair
    unfold dispatchR
    rw [if_neg h0, if_neg h5]
    split_ifs <;> decide

theorem dispatchLoad_eq_unknown_iff : ∀ f3, dispatchLoad f3 = .unknown ↔ f3 ∈ [3#3, 6#3, 7#3] := by
  decide

theorem dispatchBranch_eq_unknown_iff : ∀ f3, dispatchBranch f3 = .unknown ↔ f3 ∈ [2#3, 3#3] := by
  decide

theorem dispatchStore_eq_unknown_iff : ∀ f3, dispatchStore f3 = .unknown ↔ f3 ∈ [3#3, 4#3, 5#3, 6#3, 7#3] := by
  decide

/-! ## What the first level decides alone (R48, R51, R54 to R56) -/

/-- A word with a row in the table is recognised under all parameters. -/
theorem dispatch_ne_unknown_of_inTable (cfg : Config) {w : Word} (h : InTable w) : dispatch cfg w ≠ .unknown := by
  obtain ⟨r, hr, hrw⟩ := h
  rw [dispatch_of_holds cfg hr hrw]
  exact kind_ne_unknown r hr

/-- Five opcodes have a row for every word (R107). -/
theorem dispatch_ne_unknown_of_opcode (cfg : Config) {w : Word} (hop : opcodeOf w ∈ [0x13#7, 0x37#7, 0x17#7, 0x6F#7, 0x67#7]) :
    dispatch cfg w ≠ .unknown := by
  rcases List.mem_cons.1 hop with h13 | hupper
  · exact dispatch_ne_unknown_of_inTable cfg (inTable_of_opImm h13)
  · exact dispatch_ne_unknown_of_inTable cfg (inTable_of_upperJump hupper)

/-- The nine opcodes the first level looks for (R48). -/
def dispatchedOpcodes : List (BitVec 7) := [0x33#7, 0x03#7, 0x13#7, 0x63#7, 0x23#7, 0x37#7, 0x17#7, 0x6F#7, 0x67#7]

/-- Four of the nine have a second level that leaves words out; the other five do not. -/
theorem mem_dispatchedOpcodes_iff (op : BitVec 7) :
    op ∈ dispatchedOpcodes ↔
      op = 0x33 ∨ op = 0x03 ∨ op = 0x63 ∨ op = 0x23 ∨ op ∈ [0x13#7, 0x37#7, 0x17#7, 0x6F#7, 0x67#7] := by
  simp only [dispatchedOpcodes, List.mem_cons, List.not_mem_nil, or_false]
  tauto

/-- Set U1 (R56, R107). -/
theorem dispatch_eq_unknown_of_opcode (cfg : Config) {w : Word} (hop : opcodeOf w ∉ dispatchedOpcodes) : dispatch cfg w = .unknown := by
  simp only [dispatchedOpcodes, List.mem_cons, List.not_mem_nil, or_false, not_or] at hop
  simp [dispatch, hop]

/-- Every opcode the first level looks for ends in `0b11` (R60). -/
theorem low_bits_of_mem_dispatchedOpcodes : ∀ op ∈ dispatchedOpcodes, op.extractLsb' 0 2 = 0b11 := by
  decide

/-- A word whose two low bits are not `0b11` has an opcode of set U1 (R109). -/
theorem dispatch_eq_unknown_of_low_bits (cfg : Config) {w : Word} (hlow : w.extractLsb' 0 2 ≠ 0b11) : dispatch cfg w = .unknown := by
  refine dispatch_eq_unknown_of_opcode cfg fun hop => hlow ?_
  have hslice : (opcodeOf w).extractLsb' 0 2 = w.extractLsb' 0 2 := BitVec.extractLsb'_extractLsb'_of_le (by decide)
  rw [← hslice, low_bits_of_mem_dispatchedOpcodes _ hop]

/-! ## The six sets (R107) -/

/-- The sets U1 to U6, by the three slices the dispatch looks at. -/
theorem dispatch_eq_unknown_iff (cfg : Config) (w : Word) :
    dispatch cfg w = .unknown ↔
      opcodeOf w ∉ dispatchedOpcodes ∨
      (cfg.rPairExact = true ∧ opcodeOf w = 0x33 ∧ funct3Of w ∈ [0#3, 5#3] ∧ funct7Of w ∉ [0x00#7, 0x20#7]) ∨
      (opcodeOf w = 0x03 ∧ funct3Of w ∈ [3#3, 6#3, 7#3]) ∨
      (opcodeOf w = 0x63 ∧ funct3Of w ∈ [2#3, 3#3]) ∨
      (opcodeOf w = 0x23 ∧ funct3Of w ∈ [3#3, 4#3, 5#3, 6#3, 7#3]) := by
  by_cases hmem : opcodeOf w ∈ dispatchedOpcodes
  · rcases (mem_dispatchedOpcodes_iff _).1 hmem with hop | hop | hop | hop | hop
    · rw [dispatch_of_fields hop rfl rfl]
      simp [hop, dispatchedOpcodes, dispatchR_eq_unknown_iff]
    · rw [dispatch_of_fields hop rfl rfl]
      simp [hop, dispatchedOpcodes, dispatchLoad_eq_unknown_iff]
    · rw [dispatch_of_fields hop rfl rfl]
      simp [hop, dispatchedOpcodes, dispatchBranch_eq_unknown_iff]
    · rw [dispatch_of_fields hop rfl rfl]
      simp [hop, dispatchedOpcodes, dispatchStore_eq_unknown_iff]
    · refine iff_of_false (dispatch_ne_unknown_of_opcode cfg hop) ?_
      rintro (hno | ⟨-, h33, -⟩ | ⟨h03, -⟩ | ⟨h63, -⟩ | ⟨h23, -⟩)
      · exact hno hmem
      · exact absurd hop (by rw [h33]; decide)
      · exact absurd hop (by rw [h03]; decide)
      · exact absurd hop (by rw [h63]; decide)
      · exact absurd hop (by rw [h23]; decide)
  · exact iff_of_true (dispatch_eq_unknown_of_opcode cfg hmem) (.inl hmem)

/-- Settles O14: four opcodes have a second level that leaves words out, five have a row for every word, and all nine end in `0b11`. -/
theorem unknownWordsAreTheSixSets : Obligations.UnknownWordsAreTheSixSets :=
  ⟨dispatch_eq_unknown_iff, fun cfg _ => dispatch_eq_unknown_of_low_bits cfg, fun cfg _ => dispatch_ne_unknown_of_opcode cfg⟩

end Sys2Proof

namespace Sys2Proof.Machine

/-! ## What the unknown result drives (R106) -/

/-- Settles O37: `unknown` has template NONE, no immediate and the one text without operands. -/
theorem unknownResultCompletes : Obligations.UnknownResultCompletes :=
  fun s => ⟨exec_eq_next_drive .unknown s, by decide⟩

theorem decode_eq_unknown {cfg : Config} {w : Word} (hk : dispatch cfg w = .unknown) : decode cfg w = .unknown :=
  congrArg (fun k => instrOfKind k w) hk

/-- A call with an unrecognised word (R106, R110). -/
theorem call_eq_next_afterUnknown {s : State} {w : Word} (hk : dispatch s.cfg w = .unknown) :
    call w s = .next (Claims.afterUnknown (s.present w)) := by
  rw [call, decode_eq_unknown hk]
  exact (unknownResultCompletes _).1

theorem renders_of_unknown {cfg : Config} {w : Word} (hk : dispatch cfg w = .unknown) :
    renders cfg w = "unknown instruction".toList := by
  rw [← instrText_decode, decode_eq_unknown hk]
  rfl

/-- The example words of R106, R108 and R109 are of set U1. -/
theorem opcodeOf_example_notMem_dispatchedOpcodes : ∀ w ∈ [0x00000000#32, 0xFFFFFFFF#32, 0x0FF0000F#32, 0x00000073#32, 0x00100073#32,
    0x30001073#32, 0x30200073#32, 0x10500073#32, 0x1000A2AF#32, 0x0000A007#32, 0x0000001B#32, 0x00010001#32],
    opcodeOf w ∉ dispatchedOpcodes :=
  List.forall_iff_forall_mem.1 (by decide)

/-- Settles O46: an unrecognised word decodes to `unknown`, and the example words have opcodes the first level does not look for. -/
theorem unknownWordsRender : Obligations.UnknownWordsRender :=
  ⟨rfl, rfl, fun _ _ => call_eq_next_afterUnknown,
    fun cfg w hw => renders_of_unknown (dispatch_eq_unknown_of_opcode cfg (opcodeOf_example_notMem_dispatchedOpcodes w hw)), by decide⟩

end Sys2Proof.Machine
end

section
/-! PROOFS. The formatter (47_formatter.md): numerals and register names, the characters and the lengths of the texts by template, which
words print which text, and the text port. -/

namespace Sys2Proof.Machine

/-! ## Numerals and register names (R113 to R115) -/

theorem digit_bounds {d : Nat} (h : d < 10) : '0' ≤ digit d ∧ digit d ≤ '9' := by
  interval_cases d <;> decide

theorem eq_zero_of_digit_eq {d : Nat} (h : d < 10) (h0 : digit d = '0') : d = 0 := by
  have hcode := digit_toNat h
  rw [h0] at hcode
  exact (Nat.add_left_cancel hcode).symm

/-- A numeral's first character is the first of the numeral without its last digit, so it is 0 in the numeral of 0 alone. -/
theorem eq_zero_of_udec_head? (n : Nat) (h0 : (udec n).head? = some '0') : n = 0 := by
  induction n using Nat.strongRecOn with
  | _ n ih =>
    by_cases h : n < 10
    · rw [udec_of_lt h] at h0
      exact eq_zero_of_digit_eq h (Option.some.inj h0)
    · rw [udec_of_ge (by omega), List.head?_append_of_ne_nil _ (udec_ne_nil _)] at h0
      have := ih (n / 10) (by omega) h0
      omega

/-- Settles O48: the recursion is the model's own law, and each of the other facts goes along it. -/
theorem decimalNumerals : Obligations.DecimalNumerals := by
  refine fun n => ⟨udec_eq n, fun c hc => ?_, eq_zero_of_udec_head? n, decimalValue_udec n⟩
  obtain ⟨d, hd, rfl⟩ := udec_digits n c hc
  exact digit_bounds hd

/-- Settles O49: a sign stands in no numeral, so a text of a number gives back the sign and the magnitude. -/
theorem signedNumerals : Obligations.SignedNumerals := by
  refine ⟨fun n => sdec_of_nonneg (Int.natCast_nonneg n), fun n hn => ?_, fun _ _ h => sdec_injective h, ?_⟩
  · rw [sdec_of_neg (by omega), neg_neg, Int.toNat_natCast]
  · decide

/-- Settles O50: a name is `x` and the index's numeral, of one digit or two. -/
theorem registerNamesAreDecimal : Obligations.RegisterNamesAreDecimal := by
  refine ⟨fun i => ⟨rfl, fun h => ?_, fun h => ?_⟩, fun _ _ h => reg_injective h, by decide⟩
  · rw [reg_length, if_pos h]
  · rw [reg_length, if_neg (by omega)]

/-! ## The texts of two words (R121) -/

/-- Settles O51: a text is read off the decoded instruction, and determines it. -/
theorem textsAreExact : Obligations.TextsAreExact := by
  refine fun cfg v w => ⟨decode_eq_of_renders_eq, fun h => ?_⟩
  rw [← instrText_decode, ← instrText_decode, h]

/-! ## The characters of a text (R111) -/

theorem udec_subset_alphabet (n : Nat) : udec n ⊆ Claims.alphabet := by
  have hdigit : ∀ d < 10, digit d ∈ Claims.alphabet := by decide
  intro c hc
  obtain ⟨d, hd, rfl⟩ := udec_digits n c hc
  exact hdigit d hd

theorem sdec_subset_alphabet (v : Int) : sdec v ⊆ Claims.alphabet := by
  unfold sdec
  split
  · exact udec_subset_alphabet _
  · exact List.cons_subset.2 ⟨by decide, udec_subset_alphabet _⟩

theorem reg_subset_alphabet (i : RegIdx) : reg i ⊆ Claims.alphabet :=
  List.cons_subset.2 ⟨by decide, udec_subset_alphabet _⟩

theorem separators_subset_alphabet :
    space ⊆ Claims.alphabet ∧ comma ⊆ Claims.alphabet ∧ ['('] ⊆ Claims.alphabet ∧ [')'] ⊆ Claims.alphabet := by
  decide

theorem mnemonic_subset_alphabet (k : Kind) : k.mnemonic ⊆ Claims.alphabet := by
  cases k <;> decide

theorem unknownText_subset_alphabet : unknownText ⊆ Claims.alphabet := by
  decide

/-- Every template puts together a mnemonic, register names, numbers and separators. -/
theorem renderWord_subset_alphabet (k : Kind) (v : Int) (w : Word) : renderWord k v w ⊆ Claims.alphabet := by
  unfold renderWord
  cases k.template
  case NONE => exact unknownText_subset_alphabet
  all_goals
    simp only [textR, textIMem, textIArith, textB, textS, textU, textJ, memOperand, List.append_subset, mnemonic_subset_alphabet,
      reg_subset_alphabet, sdec_subset_alphabet, separators_subset_alphabet, and_self]

theorem renders_subset_alphabet (cfg : Config) (w : Word) : renders cfg w ⊆ Claims.alphabet :=
  renderWord_subset_alphabet ..

theorem toNat_lt_of_mem_alphabet : ∀ c ∈ Claims.alphabet, c.toNat < 128 :=
  List.forall_iff_forall_mem.1 (by decide)

/-- Settles O52: the pieces every text is made of use the alphabet; the alphabet itself is checked by computation. -/
theorem textsUseTheAlphabet : Obligations.TextsUseTheAlphabet :=
  ⟨fun cfg w _ hc => renders_subset_alphabet cfg w hc, rfl, by decide, toNat_lt_of_mem_alphabet⟩

/-! ## The length of each piece -/

theorem udec_length_le_iff (k n : Nat) : (udec n).length ≤ k + 1 ↔ n < 10 ^ (k + 1) := by
  refine ⟨fun h => ?_, udec_length_le k n⟩
  by_contra hn
  have := le_udec_length (k + 1) n (Nat.not_lt.1 hn)
  omega

theorem udec_length_pos (n : Nat) : 1 ≤ (udec n).length :=
  List.length_pos_iff.2 (udec_ne_nil n)

theorem sdec_length_pos (v : Int) : 1 ≤ (sdec v).length := by
  unfold sdec
  split
  · exact udec_length_pos _
  · exact Nat.le_add_left ..

/-- The sign takes the place of one digit. -/
theorem sdec_length_le_iff (k : Nat) (v : Int) : (sdec v).length ≤ k + 2 ↔ -10 ^ (k + 1) < v ∧ v < 10 ^ (k + 2) := by
  have hpos : ∀ j, (0 : Int) < 10 ^ j := fun j => by positivity
  rcases le_or_gt 0 v with hv | hv
  · obtain ⟨n, rfl⟩ := Int.eq_ofNat_of_zero_le hv
    rw [sdec_of_nonneg hv, Int.toNat_natCast, udec_length_le_iff, ← Int.ofNat_lt, Nat.cast_pow]
    have := hpos (k + 1)
    exact ⟨fun h => ⟨by omega, h⟩, And.right⟩
  · obtain ⟨n, hn⟩ := Int.eq_ofNat_of_zero_le (show 0 ≤ -v by omega)
    obtain rfl : v = -n := by omega
    rw [sdec_of_neg hv, neg_neg, Int.toNat_natCast, List.length_cons, Nat.add_le_add_iff_right, udec_length_le_iff, ← Int.ofNat_lt,
      Nat.cast_pow]
    have := hpos (k + 2)
    exact ⟨fun h => ⟨neg_lt_neg h, by omega⟩, fun h => neg_lt_neg_iff.1 h.1⟩

theorem reg_length_bounds (i : RegIdx) : 2 ≤ (reg i).length ∧ (reg i).length ≤ 3 := by
  rw [reg_length]
  split <;> decide

/-- The shortest and the longest mnemonic of a template (R112, R117). -/
def mnemonicLengths (t : Template) : Nat × Nat :=
  match t with
  | .NONE => (0, 0)
  | .R => (2, 4)
  | .IMEM => (2, 4)
  | .IARITH => (3, 5)
  | .B => (3, 4)
  | .S => (2, 2)
  | .U => (3, 5)
  | .J => (3, 3)

theorem mnemonic_length_bounds (k : Kind) :
    (mnemonicLengths k.template).1 ≤ k.mnemonic.length ∧ k.mnemonic.length ≤ (mnemonicLengths k.template).2 := by
  cases k <;> decide

/-- The most characters of the immediate a template prints (R46, R119). -/
def immLengthMax (cfg : Config) (t : Template) : Nat :=
  match t with
  | .U => if cfg.uRenderSigned then 11 else 10
  | .J => 8
  | _ => 5

theorem sdec_immI_length_le (w : Word) : (sdec (immI w)).length ≤ 5 := by
  have := sext_twelve_bounds (immIField w)
  rw [sdec_length_le_iff 3, immI]
  omega

theorem sdec_immMasked_length_le (w : Word) : (sdec (immMasked w)).length ≤ 5 := by
  have := (rs2Of w).isLt
  rw [sdec_length_le_iff 3, immMasked_eq_shamtValue, shamtValue]
  omega

theorem sdec_immS_length_le (w : Word) : (sdec (immS w)).length ≤ 5 := by
  have := sext_twelve_bounds (immSField w)
  rw [sdec_length_le_iff 3, immS]
  omega

theorem sdec_immB_length_le (w : Word) : (sdec (immB w)).length ≤ 5 := by
  have := immB_even_and_bounds w
  rw [sdec_length_le_iff 3]
  omega

theorem sdec_immJ_length_le (w : Word) : (sdec (immJ w)).length ≤ 8 := by
  have := immJ_even_and_bounds w
  rw [sdec_length_le_iff 6]
  omega

theorem sdec_immU_length_le (cfg : Config) (w : Word) : (sdec (immU cfg w)).length ≤ if cfg.uRenderSigned then 11 else 10 := by
  unfold immU upperValue
  split
  · have hlo := BitVec.le_toInt (immUField w)
    have hhi := BitVec.toInt_lt (x := immUField w)
    rw [sdec_length_le_iff 9, sext]
    omega
  · have := (immUField w).isLt
    rw [sdec_length_le_iff 8]
    omega

/-- The immediate of every word is as short as its template asks. -/
theorem sdec_printedImm_length_le (cfg : Config) (k : Kind) (w : Word) :
    (sdec ((printedImm cfg k w).getD 0)).length ≤ immLengthMax cfg k.template := by
  unfold printedImm
  cases k.template
  case NONE | R => exact Nat.le_add_left 1 4
  case IMEM => exact sdec_immI_length_le w
  case IARITH =>
    dsimp only
    split
    · exact sdec_immMasked_length_le w
    · exact sdec_immI_length_le w
  case B => exact sdec_immB_length_le w
  case S => exact sdec_immS_length_le w
  case U => exact sdec_immU_length_le cfg w
  case J => exact sdec_immJ_length_le w

/-! ## The length of a text (R125) -/

section
variable (m : Text) (a b c : RegIdx) (v : Int)

theorem textR_length : (textR m a b c).length = m.length + (reg a).length + (reg b).length + (reg c).length + 5 := by
  simp only [textR, space, comma, List.length_append, List.length_cons, List.length_nil]
  omega

theorem textIMem_length : (textIMem m a v b).length = m.length + (reg a).length + (sdec v).length + (reg b).length + 5 := by
  simp only [textIMem, memOperand, space, comma, List.length_append, List.length_cons, List.length_nil]
  omega

theorem textIArith_length : (textIArith m a b v).length = m.length + (reg a).length + (reg b).length + (sdec v).length + 5 := by
  simp only [textIArith, space, comma, List.length_append, List.length_cons, List.length_nil]
  omega

theorem textU_length : (textU m a v).length = m.length + (reg a).length + (sdec v).length + 3 := by
  simp only [textU, space, comma, List.length_append, List.length_cons, List.length_nil]
  omega

end

/-- A text's length is between the sums of its pieces' bounds. -/
theorem lengthBounds_renderWord {cfg : Config} {k : Kind} {v : Int} (hv : (sdec v).length ≤ immLengthMax cfg k.template) (w : Word) :
    Claims.lengthBounds cfg k.template (renderWord k v w).length := by
  have hm := mnemonic_length_bounds k
  have hrd := reg_length_bounds (rdOf w)
  have hrs1 := reg_length_bounds (rs1Of w)
  have hrs2 := reg_length_bounds (rs2Of w)
  have hpos := sdec_length_pos v
  unfold renderWord
  generalize k.template = t at hm hv ⊢
  cases t <;> simp only [mnemonicLengths, immLengthMax, Claims.lengthBounds] at hm hv ⊢
  case NONE => rfl
  case R => rw [textR_length]; omega
  case IMEM => rw [textIMem_length]; omega
  case IARITH => rw [textIArith_length]; omega
  case B => rw [show textB = textIArith from rfl, textIArith_length]; omega
  case S => rw [show textS = textIMem from rfl, textIMem_length]; omega
  case U => rw [textU_length]; split_ifs at hv ⊢ <;> omega
  case J => rw [show textJ = textU from rfl, textU_length]; omega

theorem lengthBounds_renders (cfg : Config) (w : Word) :
    Claims.lengthBounds cfg (dispatch cfg w).template (renders cfg w).length :=
  lengthBounds_renderWord (sdec_printedImm_length_le cfg (dispatch cfg w) w) w

/-- The table's bounds lie between 9 and `TEXT_MAX`, and only template U's reach past 21. -/
theorem bounds_of_lengthBounds {cfg : Config} {t : Template} {n : Nat} (h : Claims.lengthBounds cfg t n) :
    9 ≤ n ∧ n ≤ textMax cfg ∧ (t ≠ .U → n ≤ 21) := by
  have hmax : 21 ≤ textMax cfg := by unfold textMax; split <;> decide
  cases t
  case U => exact ⟨h.1, h.2, fun ht => absurd rfl ht⟩
  all_goals
    simp only [Claims.lengthBounds] at h
    exact ⟨by omega, by omega, fun _ => by omega⟩

theorem renders_length_le (cfg : Config) (w : Word) : (renders cfg w).length ≤ textMax cfg := by
  obtain ⟨-, hmax, -⟩ := bounds_of_lengthBounds (lengthBounds_renders cfg w)
  exact hmax

/-! ## The longest text (R125) -/

theorem mnemonic_length_of_template_u {k : Kind} (ht : k.template = .U) : k.mnemonic.length = if k = .auipc then 5 else 3 := by
  revert ht
  cases k <;> decide

/-- The numbers of ten digits with a sign, among those of 32 bits. -/
theorem sdec_immU_length_eq_iff {cfg : Config} (hs : cfg.uRenderSigned = true) (w : Word) :
    (sdec (immU cfg w)).length = 11 ↔ immU cfg w ≤ -10 ^ 9 := by
  have hle := sdec_immU_length_le cfg w
  have hten := sdec_length_le_iff 8 (immU cfg w)
  have hlt : immU cfg w < 2 ^ 31 := by
    rw [immU, upperValue, if_pos hs]
    exact BitVec.toInt_lt
  rw [if_pos hs] at hle
  omega

/-- 22 characters are those of `auipc`, three of a register name and eleven of a number, the most of each. -/
theorem renders_length_eq_iff {cfg : Config} (hs : cfg.uRenderSigned = true) (w : Word) :
    (renders cfg w).length = 22 ↔ dispatch cfg w = .auipc ∧ 10 ≤ (rdOf w).toNat ∧ immU cfg w ≤ -10 ^ 9 := by
  by_cases ht : (dispatch cfg w).template = .U
  · have himm := sdec_immU_length_eq_iff hs w
    have hle := sdec_immU_length_le cfg w
    rw [if_pos hs] at hle
    rw [renders_of_template_u rfl ht, textU_length, mnemonic_length_of_template_u ht, reg_length, ← himm]
    by_cases hk : dispatch cfg w = .auipc
    · rw [if_pos hk, and_iff_right hk]
      split <;> omega
    · rw [if_neg hk]
      refine ⟨fun h => ?_, fun h => absurd h.1 hk⟩
      split at h <;> omega
  · obtain ⟨-, -, hother⟩ := bounds_of_lengthBounds (lengthBounds_renders cfg w)
    have h21 := hother ht
    exact ⟨fun h => by omega, fun ⟨hk, _⟩ => absurd (by rw [hk]; rfl) ht⟩

/-- Only opcode 0x17 is `auipc`'s (R54, R103). -/
theorem dispatch_eq_auipc_iff (cfg : Config) (w : Word) : dispatch cfg w = .auipc ↔ opcodeOf w = 0x17 := by
  refine ⟨fun hk => ?_, fun hop => dispatch_of_fields hop rfl rfl⟩
  rcases inTable_or_of_dispatch (cfg := cfg) (w := w) (by simp [hk]) with ⟨r, hr, hrw⟩ | ⟨-, -, ⟨-, h⟩ | ⟨-, h⟩⟩
  · obtain rfl : r = upperJumpRows[1] := eq_of_kind_eq hr (by decide) ((dispatch_of_holds cfg hr hrw).symm.trans hk)
    have hsel : w &&& 0x0000007F = 0x00000017 &&& 0x0000007F := ((holds_iff _ w).1 hrw).1.trans (by decide)
    exact and_opcodeMask_eq_iff.1 hsel
  · cases hk.symm.trans h
  · cases hk.symm.trans h

/-- The multiples of 4096 from `-2 ^ 31` to `-10 ^ 9`, by `word[31:12]`. -/
theorem immU_le_iff {cfg : Config} (hs : cfg.uRenderSigned = true) (w : Word) :
    immU cfg w ≤ -10 ^ 9 ↔ 0x80000 ≤ (w.extractLsb' 12 20).toNat ∧ (w.extractLsb' 12 20).toNat ≤ 0xC4653 := by
  have hlt := (w.extractLsb' 12 20).isLt
  rw [immU, upperValue, if_pos hs, sext_immUField, sext, BitVec.toInt_eq_toNat_cond]
  split <;> omega

/-- Settles O53: the bounds are sums of the bounds of the pieces, and the longest text takes the most of each; the examples are computed. -/
theorem textLengthsAreBounded : Obligations.TextLengthsAreBounded := by
  refine ⟨fun cfg w => ?_, rfl, rfl, by decide, ?_⟩
  · have hbounds := lengthBounds_renders cfg w
    obtain ⟨h9, hmax, -⟩ := bounds_of_lengthBounds hbounds
    refine ⟨hbounds, h9, hmax, fun hs => ?_⟩
    rw [renders_length_eq_iff hs, dispatch_eq_auipc_iff, immU_le_iff hs]
    rfl
  · unfold Claims.examplesRender
    decide

/-! ## The text port (R124) -/

/-- A byte of the port is the code of the text's character there, and 0 where there is none. -/
theorem portByte_packText {cfg : Config} {j : Nat} (hj : j < textMax cfg) (t : Text) :
    portByte (packText cfg t) j = (t[j]?.map charCode).getD 0x00 := by
  have hpow : ∀ n, 2 ^ (8 * n) = 256 ^ n := Nat.pow_mul 2 8
  apply BitVec.eq_of_toNat_eq
  rw [portByte, packText, BitVec.extractLsb'_toNat, BitVec.toNat_ofNat, hpow, Nat.mod_eq_of_lt (packNat_lt _ t),
    Nat.shiftRight_eq_div_pow, hpow, packNat_digit, if_pos hj]
  cases t[j]? <;> rfl

theorem textLenPort_toNat {s : State} (h : s.out.text.length ≤ textMax s.cfg) : s.textLenPort.toNat = s.out.text.length := by
  have hmax : textMax s.cfg ≤ 22 := by unfold textMax; split <;> decide
  exact Nat.mod_eq_of_lt (by omega)

/-- Settles O54: after a call the text is the word's, so it fits the port and its characters are those of the alphabet. -/
theorem textPortPacksTheText : Obligations.TextPortPacksTheText := by
  refine ⟨fun w s t h => ?_, _, rfl, by decide, by decide⟩
  have htext : t.out.text = renders t.cfg w := by rw [out_of_call h, (call_frame h).1]; rfl
  refine ⟨textLenPort_toNat (htext ▸ renders_length_le t.cfg w), fun j hj => ⟨fun hlt => ⟨?_, ?_⟩, fun hge => ?_⟩⟩
  · rw [State.textPort, portByte_packText hj, List.getElem?_eq_getElem hlt]
    rfl
  · exact toNat_lt_of_mem_alphabet _ (renders_subset_alphabet t.cfg w (htext ▸ List.getElem_mem hlt))
  · rw [State.textPort, portByte_packText hj, List.getElem?_eq_none hge]
    rfl

end Sys2Proof.Machine
end

section
/-! PROOFS. The decoder against the encoder (30_encoding.md): the round trip of every instruction, the words whose kind `R_PAIR_EXACT`
decides, and words written out by the layouts of R40. -/

namespace Sys2Proof

open Sys2Proof.Machine

/-! ## Decoding an encoded instruction (R40, R58) -/

/-- The round trip of each constructor, in the order of the opcode table. -/
theorem decode_encode : (i : Instr) → Laws.RoundTrip.Statement i
  | .add rd rs1 rs2 => Laws.RoundTrip.add rd rs1 rs2
  | .sub rd rs1 rs2 => Laws.RoundTrip.sub rd rs1 rs2
  | .sll rd rs1 rs2 => Laws.RoundTrip.sll rd rs1 rs2
  | .slt rd rs1 rs2 => Laws.RoundTrip.slt rd rs1 rs2
  | .sltu rd rs1 rs2 => Laws.RoundTrip.sltu rd rs1 rs2
  | .xor rd rs1 rs2 => Laws.RoundTrip.xor rd rs1 rs2
  | .srl rd rs1 rs2 => Laws.RoundTrip.srl rd rs1 rs2
  | .sra rd rs1 rs2 => Laws.RoundTrip.sra rd rs1 rs2
  | .or rd rs1 rs2 => Laws.RoundTrip.or rd rs1 rs2
  | .and rd rs1 rs2 => Laws.RoundTrip.and rd rs1 rs2
  | .lb rd imm rs1 => Laws.RoundTrip.lb rd imm rs1
  | .lh rd imm rs1 => Laws.RoundTrip.lh rd imm rs1
  | .lw rd imm rs1 => Laws.RoundTrip.lw rd imm rs1
  | .lbu rd imm rs1 => Laws.RoundTrip.lbu rd imm rs1
  | .lhu rd imm rs1 => Laws.RoundTrip.lhu rd imm rs1
  | .addi rd rs1 imm => Laws.RoundTrip.addi rd rs1 imm
  | .slti rd rs1 imm => Laws.RoundTrip.slti rd rs1 imm
  | .sltiu rd rs1 imm => Laws.RoundTrip.sltiu rd rs1 imm
  | .xori rd rs1 imm => Laws.RoundTrip.xori rd rs1 imm
  | .ori rd rs1 imm => Laws.RoundTrip.ori rd rs1 imm
  | .andi rd rs1 imm => Laws.RoundTrip.andi rd rs1 imm
  | .slli rd rs1 imm => Laws.RoundTrip.slli rd rs1 imm
  | .srli rd rs1 shamt => Laws.RoundTrip.srli rd rs1 shamt
  | .srai rd rs1 shamt => Laws.RoundTrip.srai rd rs1 shamt
  | .beq rs1 rs2 imm => Laws.RoundTrip.beq rs1 rs2 imm
  | .bne rs1 rs2 imm => Laws.RoundTrip.bne rs1 rs2 imm
  | .blt rs1 rs2 imm => Laws.RoundTrip.blt rs1 rs2 imm
  | .bge rs1 rs2 imm => Laws.RoundTrip.bge rs1 rs2 imm
  | .bltu rs1 rs2 imm => Laws.RoundTrip.bltu rs1 rs2 imm
  | .bgeu rs1 rs2 imm => Laws.RoundTrip.bgeu rs1 rs2 imm
  | .sb rs2 imm rs1 => Laws.RoundTrip.sb rs2 imm rs1
  | .sh rs2 imm rs1 => Laws.RoundTrip.sh rs2 imm rs1
  | .sw rs2 imm rs1 => Laws.RoundTrip.sw rs2 imm rs1
  | .lui rd imm => Laws.RoundTrip.lui rd imm
  | .auipc rd imm => Laws.RoundTrip.auipc rd imm
  | .jal rd imm => Laws.RoundTrip.jal rd imm
  | .jalr rd imm rs1 => Laws.RoundTrip.jalr rd imm rs1
  | .unknown => Laws.RoundTrip.unknown

/-- The bytes of a word decode as the word does, and the bytes after them are left over (R26, R27). -/
theorem decodeBytes_wordBytes_append (cfg : Config) (w : Word) (rest : List Byte) :
    decodeBytes cfg (wordBytes w ++ rest) = .ok (decode cfg w, rest) := by
  rw [decodeBytes, takeWord_wordBytes_append]

/-- Settles O9: the dispatch finds the kind by the fixed bits of its layout, and the operands are read from the bits they were laid out in;
a forced zero bit is no loss, because the instruction is well formed. -/
theorem decodeOfEncodeIsTheInstruction : Obligations.DecodeOfEncodeIsTheInstruction := by
  intro i cfg hwf
  have hround : decode cfg (encode i) = i := decode_encode i hwf cfg
  exact ⟨hround, fun rest => by rw [decodeBytes_wordBytes_append, hround]⟩

/-! ## The words whose kind `R_PAIR_EXACT` decides (R49, D8) -/

/-- Off the pairs' other funct7 values the second level of opcode 0x33 does not look at the parameter. -/
theorem dispatchR_config_congr (cfg cfg' : Config) {f3 : BitVec 3} {f7 : BitVec 7}
    (h : ¬ (f3 ∈ [0#3, 5#3] ∧ f7 ∉ [0x00#7, 0x20#7])) : dispatchR cfg f3 f7 = dispatchR cfg' f3 f7 := by
  by_cases hpair : f3 = 0 ∨ f3 = 5
  · have h7 : f7 = 0x00 ∨ f7 = 0x20 := by
      by_contra h7
      exact h ⟨by simpa using hpair, by simpa using h7⟩
    rcases hpair with rfl | rfl <;> rcases h7 with rfl | rfl <;> rfl
  · obtain ⟨h0, h5⟩ := not_or.1 hpair
    exact dispatchR_of_not_pair cfg cfg' h0 h5 f7 f7

/-- A word of one of R49's pairs with another funct7, when it is not unknown (D8). -/
theorem dispatch_of_neither {cfg : Config} {w : Word} (hx : cfg.rPairExact = false) (hop : opcodeOf w = 0x33)
    (h3 : funct3Of w ∈ [0#3, 5#3]) (h7 : funct7Of w ∉ [0x00#7, 0x20#7]) :
    dispatch cfg w = if funct3Of w = 0 then .add else .srl := by
  obtain ⟨h00, h20⟩ : funct7Of w ≠ 0x00 ∧ funct7Of w ≠ 0x20 := by simpa using h7
  have h3' : funct3Of w = 0 ∨ funct3Of w = 5 := by simpa using h3
  rcases h3' with h3 | h3
  · rw [h3, dispatch_of_fields hop h3 rfl]
    exact (dispatchR_zero_of_neither h00 h20).trans (if_pos hx)
  · rw [h3, dispatch_of_fields hop h3 rfl]
    exact (dispatchR_five_of_neither h00 h20).trans (if_pos hx)

/-- Settles O16: the words are set U2 and U3 of R107 under true, and only opcode 0x33's second level has the parameter. -/
theorem pairParameterChangesOnlyItsWords : Obligations.PairParameterChangesOnlyItsWords := by
  refine fun signed w => ⟨fun ⟨hop, h3, h7⟩ => ⟨?_, dispatch_of_neither rfl hop h3 h7⟩, fun h => ?_⟩
  · exact (dispatch_eq_unknown_iff _ w).2 (.inr (.inl ⟨rfl, hop, h3, h7⟩))
  · exact ite_congr rfl (fun hop => dispatchR_config_congr _ _ fun hpair => h ⟨hop, hpair⟩) fun _ => rfl

/-! ## Words written out by the layouts (R40) -/

/-- Settles O18, by decoding the ten words. -/
theorem writtenOutWordsDecode : Obligations.WrittenOutWordsDecode := by
  unfold Obligations.WrittenOutWordsDecode
  decide

end Sys2Proof
end

section
/-! PROOFS. No exception and no error (60_exceptions.md): every instruction, call and step over whole words answers a state, and every word
has a text. -/

namespace Sys2Proof

/-- Inside the domain of R38 sign extension has a value. -/
theorem signExtend_isSome {bitWidth : Nat} (h1 : 1 ≤ bitWidth) (h32 : bitWidth ≤ 32) (value : Nat) :
    (signExtend value bitWidth).isSome = true := by
  rw [signExtend_eq_toInt_ofNat h1 h32]
  rfl

end Sys2Proof

namespace Sys2Proof.Machine

/-- With the image used up there is nothing to present (R140, log 5). -/
theorem step_of_empty {s : State} (h : s.image = []) : step s = .next s := by
  rw [step, fetch_of_empty h]

/-- Settles O22: `fetch` finds no chunk, and the step answers the state it was given. -/
theorem usedUpImageChangesNothing : Obligations.UsedUpImageChangesNothing :=
  fun _ h => step_of_empty h

/-- A step over whole words is a call or idles, and both answer a state (R126). -/
theorem exists_step_eq_next {s : State} (h : s.WholeImage) : ∃ t, step s = .next t := by
  rcases step_cases s with ⟨hpart, -⟩ | ⟨-, hidle⟩ | ⟨w, rest, -, -, hcall⟩
  · exact absurd h hpart
  · exact ⟨s, hidle⟩
  · exact ⟨_, hcall.trans (call_eq_next_blockOutputs w _)⟩

/-- The operands of a recognised word begin with a register in every template (R117). -/
theorem exists_renderWord_eq_mnemonic_reg {k : Kind} (hk : k ≠ .unknown) (v : Int) (w : Word) :
    ∃ a rest, renderWord k v w = k.mnemonic ++ space ++ (reg a ++ rest) := by
  unfold renderWord
  cases ht : k.template
  case NONE => exact absurd (eq_unknown_of_template ht) hk
  all_goals
    simp only [textR, textIMem, textIArith, textB, textS, textU, textJ, List.append_assoc]
    exact ⟨_, _, rfl⟩

/-- The outputs for a word are a rendered instruction or the unknown result (R126, R127). -/
theorem blockOutputs_rendered_or_unknown (cfg : Config) (w : Word) :
    ((blockOutputs cfg w).known = true ∧ (blockOutputs cfg w).kind ≠ .unknown ∧
      ∃ operands, operands ≠ [] ∧ (blockOutputs cfg w).text = (blockOutputs cfg w).kind.mnemonic ++ " ".toList ++ operands) ∨
    ((blockOutputs cfg w).known = false ∧ (blockOutputs cfg w).kind = .unknown ∧
      (blockOutputs cfg w).text = "unknown instruction".toList) := by
  by_cases hk : dispatch cfg w = .unknown
  · exact .inr ⟨congrArg knownOf hk, hk, renders_of_unknown hk⟩
  · obtain ⟨a, rest, htext⟩ := exists_renderWord_eq_mnemonic_reg hk ((printedImm cfg (dispatch cfg w) w).getD 0) w
    exact .inl ⟨bne_iff_ne.2 hk, hk, reg a ++ rest, List.cons_ne_nil _ _, htext⟩

/-- Settles O23: `exec` drives outputs whatever the instruction, a step is a call or nothing, the widths of the immediates lie in the domain
of sign extension, and `Fault` has no value. -/
theorem nothingFaultsAndEveryWordAnswers : Obligations.NothingFaultsAndEveryWordAnswers := by
  refine ⟨fun i s => ⟨_, exec_eq_next_drive i s⟩, fun w s => ⟨_, call_eq_next_blockOutputs w s, ?_⟩, fun w => ?_,
    fun _ h => exists_step_eq_next h, fun _ f => nomatch f⟩
  · exact blockOutputs_rendered_or_unknown s.cfg w
  · exact ⟨signExtend_isSome (by decide) (by decide) _, signExtend_isSome (by decide) (by decide) _,
      signExtend_isSome (by decide) (by decide) _, signExtend_isSome (by decide) (by decide) _⟩

end Sys2Proof.Machine
end

section
/-! PROOFS. Runs (70_reset_and_hazards.md): a step takes the next chunk of the image, and a run over whole words lists one text per word. -/

namespace Sys2Proof.Machine

/-! ## One step (R26, R139) -/

/-- A step over four bytes and whole words is the call for the word they assemble to. -/
theorem step_of_bytes {s : State} {b0 b1 b2 b3 : Byte} {rest : List Byte} (himg : s.image = b0 :: b1 :: b2 :: b3 :: rest)
    (hrest : rest.length % 4 = 0) : step s = call (assemble b0 b1 b2 b3) (s.withRest rest) := by
  have hwhole : s.image.length % 4 = 0 := by
    simp only [himg, List.length_cons]
    omega
  exact step_of_chunk hwhole (by rw [himg, takeWord_cons])

/-- Settles O19: the step is the call for the assembled word, and a call is `exec` of what the word decodes to. -/
theorem stepRunsTheDecodedInstruction : Obligations.StepRunsTheDecodedInstruction := by
  intro s b0 b1 b2 b3 rest i himg hrest hdecode _
  have hdecode' : decode (s.withRest rest).cfg (assemble b0 b1 b2 b3) = i := hdecode
  rw [step_of_bytes himg hrest, call, hdecode']
  rfl

/-! ## Images and the words in them (R26, R27) -/

@[simp] theorem chunks_wordBytes_append (w : Word) (bytes : List Byte) : chunks (wordBytes w ++ bytes) = w :: chunks bytes :=
  congrArg (· :: chunks bytes) (assemble_wordBytes w)

@[simp] theorem chunks_imageOf (words : List Word) : chunks (imageOf words) = words := by
  induction words with
  | nil => rfl
  | cons w words ih => rw [imageOf, chunks_wordBytes_append, ih]

@[simp] theorem length_imageOf (words : List Word) : (imageOf words).length = 4 * words.length := by
  induction words with
  | nil => rfl
  | cons w words ih =>
    rw [imageOf, List.length_append, length_wordBytes, ih, List.length_cons]
    omega

theorem length_imageOf_mod_four (words : List Word) : (imageOf words).length % 4 = 0 := by
  rw [length_imageOf, Nat.mul_mod_right]

/-- Whole words are laid out again in the bytes they were cut from. -/
theorem imageOf_chunks : ∀ {bytes : List Byte}, bytes.length % 4 = 0 → imageOf (chunks bytes) = bytes
  | [], _ => rfl
  | b0 :: b1 :: b2 :: b3 :: rest, h => by
    have hrest : rest.length % 4 = 0 := by
      simp only [List.length_cons] at h
      omega
    rw [chunks, imageOf, imageOf_chunks hrest, wordBytes_assemble]
    rfl
  | [_], h | [_, _], h | [_, _, _], h => by simp at h

theorem length_chunks {bytes : List Byte} (h : bytes.length % 4 = 0) : (chunks bytes).length = bytes.length / 4 := by
  have hlen := length_imageOf (chunks bytes)
  rw [imageOf_chunks h] at hlen
  omega

theorem listingOf_of_whole (cfg : Config) {bytes : List Byte} (h : bytes.length % 4 = 0) :
    listingOf cfg bytes = .ok ((chunks bytes).map (renders cfg)) :=
  if_pos h

/-- The listing of an image of given words: the text of each (R140). -/
theorem listingOf_imageOf (cfg : Config) (words : List Word) : listingOf cfg (imageOf words) = .ok (words.map (renders cfg)) := by
  rw [listingOf_of_whole cfg (length_imageOf_mod_four words), chunks_imageOf]

/-! ## A run over an image (R140) -/

/-- A run begins with a step (of any machine behind the host's interface). -/
theorem run_succ_of_step (M : Host.Core) {s t : M.State} (h : M.step s = .next t) (n : Nat) : M.run (n + 1) s = M.run n t := by
  rw [Host.Core.run, h]

/-- As many steps as the image has words use it up and list the text of each word, whatever the listing held before. -/
theorem run_imageOf (words : List Word) : ∀ {s : State}, s.image = imageOf words →
    ∃ t, core.run words.length s = .next t ∧ t.image = [] ∧ t.cfg = s.cfg ∧
      t.listing = s.listing ++ words.map (renders s.cfg) := by
  induction words with
  | nil => exact fun {s} himg => ⟨s, rfl, himg, rfl, (List.append_nil _).symm⟩
  | cons w words ih =>
    intro s himg
    have hwhole : s.image.length % 4 = 0 := himg ▸ length_imageOf_mod_four (w :: words)
    have htake : takeWord s.image = some (w, imageOf words) := by rw [himg, imageOf, takeWord_wordBytes_append]
    have hstep := (step_of_chunk hwhole htake).trans (call_eq_next_blockOutputs w _)
    obtain ⟨t, hrun, hempty, hcfg, hlist⟩ := ih (s := { s.withRest (imageOf words) with
      word := w, out := blockOutputs s.cfg w, listing := s.listing ++ [renders s.cfg w] }) rfl
    exact ⟨t, (run_succ_of_step core hstep _).trans hrun, hempty, hcfg, hlist.trans (List.append_assoc ..)⟩

/-- Settles O29: whole words are the image of their chunks, and the run goes along the list of these. -/
theorem runListsOneTextPerWord : Obligations.RunListsOneTextPerWord := by
  refine ⟨fun s h => ?_, fun _ h => ⟨length_chunks h, imageOf_chunks h⟩,
    fun words => ⟨chunks_imageOf words, length_imageOf words⟩⟩
  obtain ⟨t, hrun, hempty, hcfg, hlist⟩ := run_imageOf (chunks s.image) (imageOf_chunks h).symm
  rw [length_chunks h] at hrun
  exact ⟨t, hrun, hempty, hcfg, hlist, listingOf_of_whole s.cfg h⟩

/-- Settles O30: the listing of an image of words is a map over the words. -/
theorem permutedImagePermutesTheListing : Obligations.PermutedImagePermutesTheListing := by
  refine ⟨fun cfg words words' hperm => ?_, fun cfg words => ?_⟩
  · exact ⟨_, _, listingOf_imageOf cfg words, listingOf_imageOf cfg words', hperm.map _⟩
  · refine ⟨_, listingOf_imageOf cfg words, ?_, List.length_map _, fun n => List.getElem?_map⟩
    rw [listingOf_imageOf, List.map_reverse]

end Sys2Proof.Machine
end
